-- ==== Sys2Proof/Word.lean ====
section
/-! DEFINITION. The two word types of the machine: the 8-bit byte and the 16-bit address (spec 00_scope.md R4,
20_memory.md R30). Nothing else: every computation on them stands in a file of its own. -/

namespace Sys2Proof

/-- An 8-bit byte: a register A, X, Y, SP, an operand byte, the contents of one address (R10, R30). -/
abbrev Byte := BitVec 8

/-- A 16-bit address: the program counter, an effective address, a vector (R15, R30). -/
abbrev Addr := BitVec 16

end Sys2Proof
end

