-- ==== Sys2Proof/Config.lean ====
section
/-! DEFINITION. What an implementation fixes: the parameters of spec 00_scope.md R4 that the model takes as data
(PLATFORM_MAP, DECIMAL_ARITH, ADMIT_SUPPLEMENT), and the free values of a reset, which nothing constrains. -/

namespace Sys2Proof

/-- The class PLATFORM_MAP gives an address (20_memory.md R36): `ram` reads the last write and stores writes, `rom` reads a
fixed byte and ignores writes, `device` and `unmapped` have no meaning in the spec. -/
inductive AddrClass where
  | ram
  | rom
  | device
  | unmapped
  deriving DecidableEq, Repr

/-- One region of PLATFORM_MAP: the addresses `first` to `last`, all of one class. The region's storage begins at the memory cell
`base` and, where `span` is not 0, is `span` bytes long and repeats through the region (the mirroring 20_memory.md R44
leaves to the platform). DESIGN CHOICE: this shape of the open parameter (log entries 4 and 5). -/
structure Region where
  first : Addr
  last : Addr
  cls : AddrClass
  base : Addr
  span : Nat
  deriving DecidableEq, Repr

/-- DECIMAL_ARITH (00_scope.md R4, 92 D5): what D=1 does to ADC and SBC. -/
inductive DecimalArith where
  /-- D has no effect on ADC and SBC: the 2A03 behaviour and the spec's default. -/
  | ignored
  /-- ADC and SBC with D=1 are refused. -/
  | refuse
  deriving DecidableEq, Repr

/-- The parameters of R4 that one machine fixes. An address in no region of `map` is unmapped, and the first region that
holds an address decides. -/
structure Config where
  map : List Region
  decimal : DecimalArith
  admitSupplement : Bool
  deriving DecidableEq, Repr

/-- The default parameters: the spec's defaults `ignored` and `true` (R4), and the map of the spec's test vectors, all RAM
(DESIGN CHOICE, log entry 4: PLATFORM_MAP is open). -/
def Config.standard : Config :=
  { map := [{ first := 0x0000, last := 0xFFFF, cls := .ram, base := 0x0000, span := 0 }]
    decimal := .ignored
    admitSupplement := true }

/-- The free value of A after the reset numbered by its argument (RESET_A, 10_state.md R27: a draw). Log entry 12. -/
opaque Config.resetA : Nat → Byte

/-- The free value of X after a reset (RESET_X, 10_state.md R27: a draw). Log entry 12. -/
opaque Config.resetX : Nat → Byte

/-- The free value of Y after a reset (RESET_Y, 10_state.md R27: a draw). Log entry 12. -/
opaque Config.resetY : Nat → Byte

/-- The free values of N V D Z C after a reset, at their places in a status byte (RESET_FLAGS, 10_state.md R27: a draw).
Log entry 12. -/
opaque Config.resetFlags : Nat → Byte

end Sys2Proof
end

