-- ==== Sys2Proof/Syntax.lean ====
section
/-! DEFINITION. The instructions, whole: one constructor of `Instr` for each of the 151 rows of spec/opcode_table.json
(30_encoding.md R67, 47_supplement.md R160 to R164), the addressing modes of R53 to R65 as operand forms, and the two views
the opcode table itself gives of a row: its mnemonic and its operand. -/

namespace Sys2Proof

/-- The ten addressing modes that form an address, with the operand field each takes (30_encoding.md R56 to R65). A 16-bit
operand is held assembled; its byte order is `Decode`'s (R66). -/
inductive AddrMode where
  /-- Zero Page, R56. -/
  | zeroPage (b : Byte)
  /-- Zero Page,X, R57. -/
  | zeroPageX (b : Byte)
  /-- Zero Page,Y, R58. -/
  | zeroPageY (b : Byte)
  /-- Absolute, R59. -/
  | absolute (addr : Addr)
  /-- Absolute,X, R60. -/
  | absoluteX (addr : Addr)
  /-- Absolute,Y, R61. -/
  | absoluteY (addr : Addr)
  /-- Indirect, R62 (JMP only). -/
  | indirect (ptr : Addr)
  /-- (Indirect,X), R63. -/
  | indirectX (b : Byte)
  /-- (Indirect),Y, R64. -/
  | indirectY (b : Byte)
  /-- Relative, R65 (branches only). -/
  | relative (off : Byte)
  deriving DecidableEq, Repr

/-- Where an instruction that is not of Implied mode (R53) has its operand. -/
inductive Operand where
  /-- Accumulator mode, R54. -/
  | accumulator
  /-- Immediate mode, R55. -/
  | immediate (v : Byte)
  /-- One of the modes that form an address. -/
  | memory (m : AddrMode)
  deriving DecidableEq, Repr

/-- The 56 documented mnemonics (47_supplement.md R165). -/
inductive Mnemonic where
  | lda | sta | ldx | ldy | stx | sty | adc | sbc
  | inc | dec | inx | dex | iny | dey | and | ora
  | eor | asl | lsr | rol | ror | bcc | bcs | beq
  | bmi | bne | bpl | bvc | bvs | jmp | jsr | rts
  | pha | php | pla | plp | tsx | txs | clc | sec
  | cli | sei | clv | cld | sed | cmp | cpx | cpy
  | bit | nop | brk | rti | tax | tay | txa | tya
  deriving DecidableEq, Repr

/-- The instructions: a row of the opcode table each, named by its mnemonic and its addressing mode (`Acc` Accumulator, `Imm`
Immediate, `Zp` Zero Page, `Abs` Absolute, `Ind` Indirect, `IndX` (Indirect,X), `IndY` (Indirect),Y, with X or Y for an
index). The operand is the row's operand field. -/
inductive Instr where
  | ldaImm (v : Byte)
  | ldaZp (b : Byte)
  | ldaZpX (b : Byte)
  | ldaAbs (addr : Addr)
  | ldaAbsX (addr : Addr)
  | ldaAbsY (addr : Addr)
  | ldaIndX (b : Byte)
  | ldaIndY (b : Byte)
  | staZp (b : Byte)
  | staZpX (b : Byte)
  | staAbs (addr : Addr)
  | staAbsX (addr : Addr)
  | staAbsY (addr : Addr)
  | staIndX (b : Byte)
  | staIndY (b : Byte)
  | ldxImm (v : Byte)
  | ldxZp (b : Byte)
  | ldxZpY (b : Byte)
  | ldxAbs (addr : Addr)
  | ldxAbsY (addr : Addr)
  | ldyImm (v : Byte)
  | ldyZp (b : Byte)
  | ldyZpX (b : Byte)
  | ldyAbs (addr : Addr)
  | ldyAbsX (addr : Addr)
  | stxZp (b : Byte)
  | stxZpY (b : Byte)
  | stxAbs (addr : Addr)
  | styZp (b : Byte)
  | styZpX (b : Byte)
  | styAbs (addr : Addr)
  | adcImm (v : Byte)
  | adcZp (b : Byte)
  | adcZpX (b : Byte)
  | adcAbs (addr : Addr)
  | adcAbsX (addr : Addr)
  | adcAbsY (addr : Addr)
  | adcIndX (b : Byte)
  | adcIndY (b : Byte)
  | sbcImm (v : Byte)
  | sbcZp (b : Byte)
  | sbcZpX (b : Byte)
  | sbcAbs (addr : Addr)
  | sbcAbsX (addr : Addr)
  | sbcAbsY (addr : Addr)
  | sbcIndX (b : Byte)
  | sbcIndY (b : Byte)
  | incZp (b : Byte)
  | incZpX (b : Byte)
  | incAbs (addr : Addr)
  | incAbsX (addr : Addr)
  | decZp (b : Byte)
  | decZpX (b : Byte)
  | decAbs (addr : Addr)
  | decAbsX (addr : Addr)
  | inx
  | dex
  | iny
  | dey
  | andImm (v : Byte)
  | andZp (b : Byte)
  | andZpX (b : Byte)
  | andAbs (addr : Addr)
  | andAbsX (addr : Addr)
  | andAbsY (addr : Addr)
  | andIndX (b : Byte)
  | andIndY (b : Byte)
  | oraImm (v : Byte)
  | oraZp (b : Byte)
  | oraZpX (b : Byte)
  | oraAbs (addr : Addr)
  | oraAbsX (addr : Addr)
  | oraAbsY (addr : Addr)
  | oraIndX (b : Byte)
  | oraIndY (b : Byte)
  | eorImm (v : Byte)
  | eorZp (b : Byte)
  | eorZpX (b : Byte)
  | eorAbs (addr : Addr)
  | eorAbsX (addr : Addr)
  | eorAbsY (addr : Addr)
  | eorIndX (b : Byte)
  | eorIndY (b : Byte)
  | aslAcc
  | aslZp (b : Byte)
  | aslZpX (b : Byte)
  | aslAbs (addr : Addr)
  | aslAbsX (addr : Addr)
  | lsrAcc
  | lsrZp (b : Byte)
  | lsrZpX (b : Byte)
  | lsrAbs (addr : Addr)
  | lsrAbsX (addr : Addr)
  | rolAcc
  | rolZp (b : Byte)
  | rolZpX (b : Byte)
  | rolAbs (addr : Addr)
  | rolAbsX (addr : Addr)
  | rorAcc
  | rorZp (b : Byte)
  | rorZpX (b : Byte)
  | rorAbs (addr : Addr)
  | rorAbsX (addr : Addr)
  | bcc (off : Byte)
  | bcs (off : Byte)
  | beq (off : Byte)
  | bmi (off : Byte)
  | bne (off : Byte)
  | bpl (off : Byte)
  | bvc (off : Byte)
  | bvs (off : Byte)
  | jmpAbs (addr : Addr)
  | jmpInd (ptr : Addr)
  | jsr (addr : Addr)
  | rts
  | pha
  | php
  | pla
  | plp
  | tsx
  | txs
  | clc
  | sec
  | cli
  | sei
  | clv
  | cld
  | sed
  | cmpImm (v : Byte)
  | cmpZp (b : Byte)
  | cmpZpX (b : Byte)
  | cmpAbs (addr : Addr)
  | cmpAbsX (addr : Addr)
  | cmpAbsY (addr : Addr)
  | cmpIndX (b : Byte)
  | cmpIndY (b : Byte)
  | cpxImm (v : Byte)
  | cpxZp (b : Byte)
  | cpxAbs (addr : Addr)
  | cpyImm (v : Byte)
  | cpyZp (b : Byte)
  | cpyAbs (addr : Addr)
  | bitZp (b : Byte)
  | bitAbs (addr : Addr)
  | nop
  | brk
  | rti
  | tax
  | tay
  | txa
  | tya
  deriving DecidableEq, Repr

/-- The mnemonic of the instruction's row. -/
def Instr.mnemonic : Instr → Mnemonic
  | .ldaImm _ => .lda
  | .ldaZp _ => .lda
  | .ldaZpX _ => .lda
  | .ldaAbs _ => .lda
  | .ldaAbsX _ => .lda
  | .ldaAbsY _ => .lda
  | .ldaIndX _ => .lda
  | .ldaIndY _ => .lda
  | .staZp _ => .sta
  | .staZpX _ => .sta
  | .staAbs _ => .sta
  | .staAbsX _ => .sta
  | .staAbsY _ => .sta
  | .staIndX _ => .sta
  | .staIndY _ => .sta
  | .ldxImm _ => .ldx
  | .ldxZp _ => .ldx
  | .ldxZpY _ => .ldx
  | .ldxAbs _ => .ldx
  | .ldxAbsY _ => .ldx
  | .ldyImm _ => .ldy
  | .ldyZp _ => .ldy
  | .ldyZpX _ => .ldy
  | .ldyAbs _ => .ldy
  | .ldyAbsX _ => .ldy
  | .stxZp _ => .stx
  | .stxZpY _ => .stx
  | .stxAbs _ => .stx
  | .styZp _ => .sty
  | .styZpX _ => .sty
  | .styAbs _ => .sty
  | .adcImm _ => .adc
  | .adcZp _ => .adc
  | .adcZpX _ => .adc
  | .adcAbs _ => .adc
  | .adcAbsX _ => .adc
  | .adcAbsY _ => .adc
  | .adcIndX _ => .adc
  | .adcIndY _ => .adc
  | .sbcImm _ => .sbc
  | .sbcZp _ => .sbc
  | .sbcZpX _ => .sbc
  | .sbcAbs _ => .sbc
  | .sbcAbsX _ => .sbc
  | .sbcAbsY _ => .sbc
  | .sbcIndX _ => .sbc
  | .sbcIndY _ => .sbc
  | .incZp _ => .inc
  | .incZpX _ => .inc
  | .incAbs _ => .inc
  | .incAbsX _ => .inc
  | .decZp _ => .dec
  | .decZpX _ => .dec
  | .decAbs _ => .dec
  | .decAbsX _ => .dec
  | .inx => .inx
  | .dex => .dex
  | .iny => .iny
  | .dey => .dey
  | .andImm _ => .and
  | .andZp _ => .and
  | .andZpX _ => .and
  | .andAbs _ => .and
  | .andAbsX _ => .and
  | .andAbsY _ => .and
  | .andIndX _ => .and
  | .andIndY _ => .and
  | .oraImm _ => .ora
  | .oraZp _ => .ora
  | .oraZpX _ => .ora
  | .oraAbs _ => .ora
  | .oraAbsX _ => .ora
  | .oraAbsY _ => .ora
  | .oraIndX _ => .ora
  | .oraIndY _ => .ora
  | .eorImm _ => .eor
  | .eorZp _ => .eor
  | .eorZpX _ => .eor
  | .eorAbs _ => .eor
  | .eorAbsX _ => .eor
  | .eorAbsY _ => .eor
  | .eorIndX _ => .eor
  | .eorIndY _ => .eor
  | .aslAcc => .asl
  | .aslZp _ => .asl
  | .aslZpX _ => .asl
  | .aslAbs _ => .asl
  | .aslAbsX _ => .asl
  | .lsrAcc => .lsr
  | .lsrZp _ => .lsr
  | .lsrZpX _ => .lsr
  | .lsrAbs _ => .lsr
  | .lsrAbsX _ => .lsr
  | .rolAcc => .rol
  | .rolZp _ => .rol
  | .rolZpX _ => .rol
  | .rolAbs _ => .rol
  | .rolAbsX _ => .rol
  | .rorAcc => .ror
  | .rorZp _ => .ror
  | .rorZpX _ => .ror
  | .rorAbs _ => .ror
  | .rorAbsX _ => .ror
  | .bcc _ => .bcc
  | .bcs _ => .bcs
  | .beq _ => .beq
  | .bmi _ => .bmi
  | .bne _ => .bne
  | .bpl _ => .bpl
  | .bvc _ => .bvc
  | .bvs _ => .bvs
  | .jmpAbs _ => .jmp
  | .jmpInd _ => .jmp
  | .jsr _ => .jsr
  | .rts => .rts
  | .pha => .pha
  | .php => .php
  | .pla => .pla
  | .plp => .plp
  | .tsx => .tsx
  | .txs => .txs
  | .clc => .clc
  | .sec => .sec
  | .cli => .cli
  | .sei => .sei
  | .clv => .clv
  | .cld => .cld
  | .sed => .sed
  | .cmpImm _ => .cmp
  | .cmpZp _ => .cmp
  | .cmpZpX _ => .cmp
  | .cmpAbs _ => .cmp
  | .cmpAbsX _ => .cmp
  | .cmpAbsY _ => .cmp
  | .cmpIndX _ => .cmp
  | .cmpIndY _ => .cmp
  | .cpxImm _ => .cpx
  | .cpxZp _ => .cpx
  | .cpxAbs _ => .cpx
  | .cpyImm _ => .cpy
  | .cpyZp _ => .cpy
  | .cpyAbs _ => .cpy
  | .bitZp _ => .bit
  | .bitAbs _ => .bit
  | .nop => .nop
  | .brk => .brk
  | .rti => .rti
  | .tax => .tax
  | .tay => .tay
  | .txa => .txa
  | .tya => .tya

/-- The operand of the instruction's row; `none` in Implied mode, which has no operand field (R53). -/
def Instr.operand : Instr → Option Operand
  | .ldaImm v => some (.immediate v)
  | .ldaZp b => some (.memory (.zeroPage b))
  | .ldaZpX b => some (.memory (.zeroPageX b))
  | .ldaAbs addr => some (.memory (.absolute addr))
  | .ldaAbsX addr => some (.memory (.absoluteX addr))
  | .ldaAbsY addr => some (.memory (.absoluteY addr))
  | .ldaIndX b => some (.memory (.indirectX b))
  | .ldaIndY b => some (.memory (.indirectY b))
  | .staZp b => some (.memory (.zeroPage b))
  | .staZpX b => some (.memory (.zeroPageX b))
  | .staAbs addr => some (.memory (.absolute addr))
  | .staAbsX addr => some (.memory (.absoluteX addr))
  | .staAbsY addr => some (.memory (.absoluteY addr))
  | .staIndX b => some (.memory (.indirectX b))
  | .staIndY b => some (.memory (.indirectY b))
  | .ldxImm v => some (.immediate v)
  | .ldxZp b => some (.memory (.zeroPage b))
  | .ldxZpY b => some (.memory (.zeroPageY b))
  | .ldxAbs addr => some (.memory (.absolute addr))
  | .ldxAbsY addr => some (.memory (.absoluteY addr))
  | .ldyImm v => some (.immediate v)
  | .ldyZp b => some (.memory (.zeroPage b))
  | .ldyZpX b => some (.memory (.zeroPageX b))
  | .ldyAbs addr => some (.memory (.absolute addr))
  | .ldyAbsX addr => some (.memory (.absoluteX addr))
  | .stxZp b => some (.memory (.zeroPage b))
  | .stxZpY b => some (.memory (.zeroPageY b))
  | .stxAbs addr => some (.memory (.absolute addr))
  | .styZp b => some (.memory (.zeroPage b))
  | .styZpX b => some (.memory (.zeroPageX b))
  | .styAbs addr => some (.memory (.absolute addr))
  | .adcImm v => some (.immediate v)
  | .adcZp b => some (.memory (.zeroPage b))
  | .adcZpX b => some (.memory (.zeroPageX b))
  | .adcAbs addr => some (.memory (.absolute addr))
  | .adcAbsX addr => some (.memory (.absoluteX addr))
  | .adcAbsY addr => some (.memory (.absoluteY addr))
  | .adcIndX b => some (.memory (.indirectX b))
  | .adcIndY b => some (.memory (.indirectY b))
  | .sbcImm v => some (.immediate v)
  | .sbcZp b => some (.memory (.zeroPage b))
  | .sbcZpX b => some (.memory (.zeroPageX b))
  | .sbcAbs addr => some (.memory (.absolute addr))
  | .sbcAbsX addr => some (.memory (.absoluteX addr))
  | .sbcAbsY addr => some (.memory (.absoluteY addr))
  | .sbcIndX b => some (.memory (.indirectX b))
  | .sbcIndY b => some (.memory (.indirectY b))
  | .incZp b => some (.memory (.zeroPage b))
  | .incZpX b => some (.memory (.zeroPageX b))
  | .incAbs addr => some (.memory (.absolute addr))
  | .incAbsX addr => some (.memory (.absoluteX addr))
  | .decZp b => some (.memory (.zeroPage b))
  | .decZpX b => some (.memory (.zeroPageX b))
  | .decAbs addr => some (.memory (.absolute addr))
  | .decAbsX addr => some (.memory (.absoluteX addr))
  | .inx => none
  | .dex => none
  | .iny => none
  | .dey => none
  | .andImm v => some (.immediate v)
  | .andZp b => some (.memory (.zeroPage b))
  | .andZpX b => some (.memory (.zeroPageX b))
  | .andAbs addr => some (.memory (.absolute addr))
  | .andAbsX addr => some (.memory (.absoluteX addr))
  | .andAbsY addr => some (.memory (.absoluteY addr))
  | .andIndX b => some (.memory (.indirectX b))
  | .andIndY b => some (.memory (.indirectY b))
  | .oraImm v => some (.immediate v)
  | .oraZp b => some (.memory (.zeroPage b))
  | .oraZpX b => some (.memory (.zeroPageX b))
  | .oraAbs addr => some (.memory (.absolute addr))
  | .oraAbsX addr => some (.memory (.absoluteX addr))
  | .oraAbsY addr => some (.memory (.absoluteY addr))
  | .oraIndX b => some (.memory (.indirectX b))
  | .oraIndY b => some (.memory (.indirectY b))
  | .eorImm v => some (.immediate v)
  | .eorZp b => some (.memory (.zeroPage b))
  | .eorZpX b => some (.memory (.zeroPageX b))
  | .eorAbs addr => some (.memory (.absolute addr))
  | .eorAbsX addr => some (.memory (.absoluteX addr))
  | .eorAbsY addr => some (.memory (.absoluteY addr))
  | .eorIndX b => some (.memory (.indirectX b))
  | .eorIndY b => some (.memory (.indirectY b))
  | .aslAcc => some .accumulator
  | .aslZp b => some (.memory (.zeroPage b))
  | .aslZpX b => some (.memory (.zeroPageX b))
  | .aslAbs addr => some (.memory (.absolute addr))
  | .aslAbsX addr => some (.memory (.absoluteX addr))
  | .lsrAcc => some .accumulator
  | .lsrZp b => some (.memory (.zeroPage b))
  | .lsrZpX b => some (.memory (.zeroPageX b))
  | .lsrAbs addr => some (.memory (.absolute addr))
  | .lsrAbsX addr => some (.memory (.absoluteX addr))
  | .rolAcc => some .accumulator
  | .rolZp b => some (.memory (.zeroPage b))
  | .rolZpX b => some (.memory (.zeroPageX b))
  | .rolAbs addr => some (.memory (.absolute addr))
  | .rolAbsX addr => some (.memory (.absoluteX addr))
  | .rorAcc => some .accumulator
  | .rorZp b => some (.memory (.zeroPage b))
  | .rorZpX b => some (.memory (.zeroPageX b))
  | .rorAbs addr => some (.memory (.absolute addr))
  | .rorAbsX addr => some (.memory (.absoluteX addr))
  | .bcc off => some (.memory (.relative off))
  | .bcs off => some (.memory (.relative off))
  | .beq off => some (.memory (.relative off))
  | .bmi off => some (.memory (.relative off))
  | .bne off => some (.memory (.relative off))
  | .bpl off => some (.memory (.relative off))
  | .bvc off => some (.memory (.relative off))
  | .bvs off => some (.memory (.relative off))
  | .jmpAbs addr => some (.memory (.absolute addr))
  | .jmpInd ptr => some (.memory (.indirect ptr))
  | .jsr addr => some (.memory (.absolute addr))
  | .rts => none
  | .pha => none
  | .php => none
  | .pla => none
  | .plp => none
  | .tsx => none
  | .txs => none
  | .clc => none
  | .sec => none
  | .cli => none
  | .sei => none
  | .clv => none
  | .cld => none
  | .sed => none
  | .cmpImm v => some (.immediate v)
  | .cmpZp b => some (.memory (.zeroPage b))
  | .cmpZpX b => some (.memory (.zeroPageX b))
  | .cmpAbs addr => some (.memory (.absolute addr))
  | .cmpAbsX addr => some (.memory (.absoluteX addr))
  | .cmpAbsY addr => some (.memory (.absoluteY addr))
  | .cmpIndX b => some (.memory (.indirectX b))
  | .cmpIndY b => some (.memory (.indirectY b))
  | .cpxImm v => some (.immediate v)
  | .cpxZp b => some (.memory (.zeroPage b))
  | .cpxAbs addr => some (.memory (.absolute addr))
  | .cpyImm v => some (.immediate v)
  | .cpyZp b => some (.memory (.zeroPage b))
  | .cpyAbs addr => some (.memory (.absolute addr))
  | .bitZp b => some (.memory (.zeroPage b))
  | .bitAbs addr => some (.memory (.absolute addr))
  | .nop => none
  | .brk => none
  | .rti => none
  | .tax => none
  | .tay => none
  | .txa => none
  | .tya => none

end Sys2Proof
end

