-- ==== Sys2Proof/WellFormed.lean ====
section
/-! DEFINITION. What makes an instruction and a configuration well formed. An instruction's operand types already hold exactly
what its encoding admits (every bit of `b1` and `b2` is significant, 30_encoding.md R69), so the one check on an
instruction is that its row is admitted (R52 (3)); the checks on a configuration are that its map is a map. -/

namespace Sys2Proof

/-- Whether the source document lists the instruction's row: false for the 46 rows of 47_supplement.md (00_scope.md R3). -/
def Instr.inSource : Instr → Bool
  | .ldaImm _ => true
  | .ldaZp _ => true
  | .ldaZpX _ => true
  | .ldaAbs _ => true
  | .ldaAbsX _ => true
  | .ldaAbsY _ => true
  | .ldaIndX _ => true
  | .ldaIndY _ => true
  | .staZp _ => true
  | .staZpX _ => false
  | .staAbs _ => true
  | .staAbsX _ => true
  | .staAbsY _ => false
  | .staIndX _ => true
  | .staIndY _ => true
  | .ldxImm _ => true
  | .ldxZp _ => true
  | .ldxZpY _ => false
  | .ldxAbs _ => true
  | .ldxAbsY _ => true
  | .ldyImm _ => true
  | .ldyZp _ => true
  | .ldyZpX _ => false
  | .ldyAbs _ => true
  | .ldyAbsX _ => true
  | .stxZp _ => true
  | .stxZpY _ => true
  | .stxAbs _ => true
  | .styZp _ => true
  | .styZpX _ => true
  | .styAbs _ => true
  | .adcImm _ => true
  | .adcZp _ => true
  | .adcZpX _ => false
  | .adcAbs _ => true
  | .adcAbsX _ => false
  | .adcAbsY _ => false
  | .adcIndX _ => false
  | .adcIndY _ => false
  | .sbcImm _ => true
  | .sbcZp _ => true
  | .sbcZpX _ => false
  | .sbcAbs _ => true
  | .sbcAbsX _ => false
  | .sbcAbsY _ => false
  | .sbcIndX _ => false
  | .sbcIndY _ => false
  | .incZp _ => true
  | .incZpX _ => true
  | .incAbs _ => true
  | .incAbsX _ => true
  | .decZp _ => true
  | .decZpX _ => true
  | .decAbs _ => true
  | .decAbsX _ => true
  | .inx => true
  | .dex => true
  | .iny => true
  | .dey => true
  | .andImm _ => true
  | .andZp _ => true
  | .andZpX _ => false
  | .andAbs _ => true
  | .andAbsX _ => false
  | .andAbsY _ => false
  | .andIndX _ => false
  | .andIndY _ => false
  | .oraImm _ => true
  | .oraZp _ => true
  | .oraZpX _ => false
  | .oraAbs _ => true
  | .oraAbsX _ => false
  | .oraAbsY _ => false
  | .oraIndX _ => false
  | .oraIndY _ => false
  | .eorImm _ => true
  | .eorZp _ => true
  | .eorZpX _ => false
  | .eorAbs _ => true
  | .eorAbsX _ => false
  | .eorAbsY _ => false
  | .eorIndX _ => false
  | .eorIndY _ => false
  | .aslAcc => true
  | .aslZp _ => true
  | .aslZpX _ => false
  | .aslAbs _ => true
  | .aslAbsX _ => false
  | .lsrAcc => true
  | .lsrZp _ => true
  | .lsrZpX _ => false
  | .lsrAbs _ => true
  | .lsrAbsX _ => false
  | .rolAcc => true
  | .rolZp _ => true
  | .rolZpX _ => false
  | .rolAbs _ => true
  | .rolAbsX _ => false
  | .rorAcc => true
  | .rorZp _ => true
  | .rorZpX _ => false
  | .rorAbs _ => true
  | .rorAbsX _ => false
  | .bcc _ => true
  | .bcs _ => true
  | .beq _ => true
  | .bmi _ => true
  | .bne _ => true
  | .bpl _ => true
  | .bvc _ => true
  | .bvs _ => true
  | .jmpAbs _ => true
  | .jmpInd _ => true
  | .jsr _ => true
  | .rts => true
  | .pha => true
  | .php => true
  | .pla => true
  | .plp => true
  | .tsx => true
  | .txs => true
  | .clc => true
  | .sec => true
  | .cli => true
  | .sei => true
  | .clv => true
  | .cld => true
  | .sed => true
  | .cmpImm _ => true
  | .cmpZp _ => true
  | .cmpZpX _ => false
  | .cmpAbs _ => true
  | .cmpAbsX _ => false
  | .cmpAbsY _ => false
  | .cmpIndX _ => false
  | .cmpIndY _ => false
  | .cpxImm _ => true
  | .cpxZp _ => true
  | .cpxAbs _ => true
  | .cpyImm _ => true
  | .cpyZp _ => true
  | .cpyAbs _ => true
  | .bitZp _ => true
  | .bitAbs _ => true
  | .nop => true
  | .brk => true
  | .rti => true
  | .tax => false
  | .tay => false
  | .txa => false
  | .tya => false

/-- The check on an instruction: its row is one of the source's, or ADMIT_SUPPLEMENT is true (00_scope.md R4, 30_encoding.md
R52 (3)). -/
def Instr.wellFormed (cfg : Config) (i : Instr) : Bool := i.inSource || cfg.admitSupplement

/-- The number of memory cells a region's storage takes: its span where that repeats inside the region, else one for each
address. -/
def Region.cells (r : Region) : Nat :=
  let n := r.last.toNat - r.first.toNat + 1
  if r.span = 0 then n else min r.span n

/-- The check on a region: it holds at least one address, and its cells lie inside the address space. -/
def Region.wellFormed (r : Region) : Bool :=
  decide (r.first.toNat ≤ r.last.toNat) && decide (r.base.toNat + r.cells ≤ 65536)

/-- Two regions share no address. -/
def Region.disjoint (r q : Region) : Bool :=
  decide (r.last.toNat < q.first.toNat) || decide (q.last.toNat < r.first.toNat)

/-- Two regions share no cell that one of them could write and the other must keep fixed (20_memory.md R36): if one is `ram`
and the other `rom`, their cells are apart. -/
def Region.storageApart (r q : Region) : Bool :=
  r.cls == q.cls || r.cls == .device || q.cls == .device || r.cls == .unmapped || q.cls == .unmapped ||
    decide (r.base.toNat + r.cells ≤ q.base.toNat) || decide (q.base.toNat + q.cells ≤ r.base.toNat)

/-- The check on a map: every region is well formed, no two regions share an address, so that PLATFORM_MAP is a function
from addresses (92 D10), and no `ram` region reaches the cells of a `rom` region. -/
def regionsWellFormed : List Region → Bool
  | [] => true
  | r :: rs => r.wellFormed && rs.all (fun q => r.disjoint q && r.storageApart q) && regionsWellFormed rs

/-- The check on a configuration. -/
def Config.wellFormed (cfg : Config) : Bool := regionsWellFormed cfg.map

end Sys2Proof
end

