-- ==== Sys2Proof/Decode.lean ====
section
/-! DEFINITION. The decoder, total on any bytes and rejecting by name, over the opcode table of 30_encoding.md R67, R68 and
47_supplement.md R164; the byte order of an operand field (R51, 20_memory.md R34); and the encoder, from the same tables. -/

namespace Sys2Proof

/-- Bits 7..0 of a 16-bit value: `lo(w)` of 00_scope.md 6.1. -/
def loByte (w : Addr) : Byte := w.extractLsb' 0 8

/-- Bits 15..8 of a 16-bit value: `hi(w)` of 00_scope.md 6.1. -/
def hiByte (w : Addr) : Byte := w.extractLsb' 8 8

/-- The 16-bit value `(h : l)` of 00_scope.md 6.1. -/
def wordOf (h l : Byte) : Addr := h ++ l

/-- The three formats of R51, each with what it makes of its operand field. -/
inductive Form where
  /-- F1: the opcode alone. -/
  | f1 (i : Instr)
  /-- F2: the opcode and `b1`. -/
  | f2 (f : Byte → Instr)
  /-- F3: the opcode, `b1` (bits 7..0 of a 16-bit operand) and `b2` (bits 15..8). -/
  | f3 (f : Addr → Instr)

/-- The length in bytes of an instruction of the format (R50, R51). -/
def Form.length : Form → Nat
  | .f1 _ => 1
  | .f2 _ => 2
  | .f3 _ => 3

/-- One row of the opcode table: the opcode byte, whether the source lists the row (00_scope.md R3), and its format. -/
structure Row where
  opcode : Byte
  inSource : Bool
  form : Form

/-- Row 0x of the grid of R68. -/
def opcodeRow0 : List Row :=
  [ ⟨0x00, true, .f1 .brk⟩,
    ⟨0x01, false, .f2 .oraIndX⟩,
    ⟨0x05, true, .f2 .oraZp⟩,
    ⟨0x06, true, .f2 .aslZp⟩,
    ⟨0x08, true, .f1 .php⟩,
    ⟨0x09, true, .f2 .oraImm⟩,
    ⟨0x0A, true, .f1 .aslAcc⟩,
    ⟨0x0D, true, .f3 .oraAbs⟩,
    ⟨0x0E, true, .f3 .aslAbs⟩ ]

/-- Row 1x of the grid of R68. -/
def opcodeRow1 : List Row :=
  [ ⟨0x10, true, .f2 .bpl⟩,
    ⟨0x11, false, .f2 .oraIndY⟩,
    ⟨0x15, false, .f2 .oraZpX⟩,
    ⟨0x16, false, .f2 .aslZpX⟩,
    ⟨0x18, true, .f1 .clc⟩,
    ⟨0x19, false, .f3 .oraAbsY⟩,
    ⟨0x1D, false, .f3 .oraAbsX⟩,
    ⟨0x1E, false, .f3 .aslAbsX⟩ ]

/-- Row 2x of the grid of R68. -/
def opcodeRow2 : List Row :=
  [ ⟨0x20, true, .f3 .jsr⟩,
    ⟨0x21, false, .f2 .andIndX⟩,
    ⟨0x24, true, .f2 .bitZp⟩,
    ⟨0x25, true, .f2 .andZp⟩,
    ⟨0x26, true, .f2 .rolZp⟩,
    ⟨0x28, true, .f1 .plp⟩,
    ⟨0x29, true, .f2 .andImm⟩,
    ⟨0x2A, true, .f1 .rolAcc⟩,
    ⟨0x2C, true, .f3 .bitAbs⟩,
    ⟨0x2D, true, .f3 .andAbs⟩,
    ⟨0x2E, true, .f3 .rolAbs⟩ ]

/-- Row 3x of the grid of R68. -/
def opcodeRow3 : List Row :=
  [ ⟨0x30, true, .f2 .bmi⟩,
    ⟨0x31, false, .f2 .andIndY⟩,
    ⟨0x35, false, .f2 .andZpX⟩,
    ⟨0x36, false, .f2 .rolZpX⟩,
    ⟨0x38, true, .f1 .sec⟩,
    ⟨0x39, false, .f3 .andAbsY⟩,
    ⟨0x3D, false, .f3 .andAbsX⟩,
    ⟨0x3E, false, .f3 .rolAbsX⟩ ]

/-- Row 4x of the grid of R68. -/
def opcodeRow4 : List Row :=
  [ ⟨0x40, true, .f1 .rti⟩,
    ⟨0x41, false, .f2 .eorIndX⟩,
    ⟨0x45, true, .f2 .eorZp⟩,
    ⟨0x46, true, .f2 .lsrZp⟩,
    ⟨0x48, true, .f1 .pha⟩,
    ⟨0x49, true, .f2 .eorImm⟩,
    ⟨0x4A, true, .f1 .lsrAcc⟩,
    ⟨0x4C, true, .f3 .jmpAbs⟩,
    ⟨0x4D, true, .f3 .eorAbs⟩,
    ⟨0x4E, true, .f3 .lsrAbs⟩ ]

/-- Row 5x of the grid of R68. -/
def opcodeRow5 : List Row :=
  [ ⟨0x50, true, .f2 .bvc⟩,
    ⟨0x51, false, .f2 .eorIndY⟩,
    ⟨0x55, false, .f2 .eorZpX⟩,
    ⟨0x56, false, .f2 .lsrZpX⟩,
    ⟨0x58, true, .f1 .cli⟩,
    ⟨0x59, false, .f3 .eorAbsY⟩,
    ⟨0x5D, false, .f3 .eorAbsX⟩,
    ⟨0x5E, false, .f3 .lsrAbsX⟩ ]

/-- Row 6x of the grid of R68. -/
def opcodeRow6 : List Row :=
  [ ⟨0x60, true, .f1 .rts⟩,
    ⟨0x61, false, .f2 .adcIndX⟩,
    ⟨0x65, true, .f2 .adcZp⟩,
    ⟨0x66, true, .f2 .rorZp⟩,
    ⟨0x68, true, .f1 .pla⟩,
    ⟨0x69, true, .f2 .adcImm⟩,
    ⟨0x6A, true, .f1 .rorAcc⟩,
    ⟨0x6C, true, .f3 .jmpInd⟩,
    ⟨0x6D, true, .f3 .adcAbs⟩,
    ⟨0x6E, true, .f3 .rorAbs⟩ ]

/-- Row 7x of the grid of R68. -/
def opcodeRow7 : List Row :=
  [ ⟨0x70, true, .f2 .bvs⟩,
    ⟨0x71, false, .f2 .adcIndY⟩,
    ⟨0x75, false, .f2 .adcZpX⟩,
    ⟨0x76, false, .f2 .rorZpX⟩,
    ⟨0x78, true, .f1 .sei⟩,
    ⟨0x79, false, .f3 .adcAbsY⟩,
    ⟨0x7D, false, .f3 .adcAbsX⟩,
    ⟨0x7E, false, .f3 .rorAbsX⟩ ]

/-- Row 8x of the grid of R68. -/
def opcodeRow8 : List Row :=
  [ ⟨0x81, true, .f2 .staIndX⟩,
    ⟨0x84, true, .f2 .styZp⟩,
    ⟨0x85, true, .f2 .staZp⟩,
    ⟨0x86, true, .f2 .stxZp⟩,
    ⟨0x88, true, .f1 .dey⟩,
    ⟨0x8A, false, .f1 .txa⟩,
    ⟨0x8C, true, .f3 .styAbs⟩,
    ⟨0x8D, true, .f3 .staAbs⟩,
    ⟨0x8E, true, .f3 .stxAbs⟩ ]

/-- Row 9x of the grid of R68. -/
def opcodeRow9 : List Row :=
  [ ⟨0x90, true, .f2 .bcc⟩,
    ⟨0x91, true, .f2 .staIndY⟩,
    ⟨0x94, true, .f2 .styZpX⟩,
    ⟨0x95, false, .f2 .staZpX⟩,
    ⟨0x96, true, .f2 .stxZpY⟩,
    ⟨0x98, false, .f1 .tya⟩,
    ⟨0x99, false, .f3 .staAbsY⟩,
    ⟨0x9A, true, .f1 .txs⟩,
    ⟨0x9D, true, .f3 .staAbsX⟩ ]

/-- Row Ax of the grid of R68. -/
def opcodeRowA : List Row :=
  [ ⟨0xA0, true, .f2 .ldyImm⟩,
    ⟨0xA1, true, .f2 .ldaIndX⟩,
    ⟨0xA2, true, .f2 .ldxImm⟩,
    ⟨0xA4, true, .f2 .ldyZp⟩,
    ⟨0xA5, true, .f2 .ldaZp⟩,
    ⟨0xA6, true, .f2 .ldxZp⟩,
    ⟨0xA8, false, .f1 .tay⟩,
    ⟨0xA9, true, .f2 .ldaImm⟩,
    ⟨0xAA, false, .f1 .tax⟩,
    ⟨0xAC, true, .f3 .ldyAbs⟩,
    ⟨0xAD, true, .f3 .ldaAbs⟩,
    ⟨0xAE, true, .f3 .ldxAbs⟩ ]

/-- Row Bx of the grid of R68. -/
def opcodeRowB : List Row :=
  [ ⟨0xB0, true, .f2 .bcs⟩,
    ⟨0xB1, true, .f2 .ldaIndY⟩,
    ⟨0xB4, false, .f2 .ldyZpX⟩,
    ⟨0xB5, true, .f2 .ldaZpX⟩,
    ⟨0xB6, false, .f2 .ldxZpY⟩,
    ⟨0xB8, true, .f1 .clv⟩,
    ⟨0xB9, true, .f3 .ldaAbsY⟩,
    ⟨0xBA, true, .f1 .tsx⟩,
    ⟨0xBC, true, .f3 .ldyAbsX⟩,
    ⟨0xBD, true, .f3 .ldaAbsX⟩,
    ⟨0xBE, true, .f3 .ldxAbsY⟩ ]

/-- Row Cx of the grid of R68. -/
def opcodeRowC : List Row :=
  [ ⟨0xC0, true, .f2 .cpyImm⟩,
    ⟨0xC1, false, .f2 .cmpIndX⟩,
    ⟨0xC4, true, .f2 .cpyZp⟩,
    ⟨0xC5, true, .f2 .cmpZp⟩,
    ⟨0xC6, true, .f2 .decZp⟩,
    ⟨0xC8, true, .f1 .iny⟩,
    ⟨0xC9, true, .f2 .cmpImm⟩,
    ⟨0xCA, true, .f1 .dex⟩,
    ⟨0xCC, true, .f3 .cpyAbs⟩,
    ⟨0xCD, true, .f3 .cmpAbs⟩,
    ⟨0xCE, true, .f3 .decAbs⟩ ]

/-- Row Dx of the grid of R68. -/
def opcodeRowD : List Row :=
  [ ⟨0xD0, true, .f2 .bne⟩,
    ⟨0xD1, false, .f2 .cmpIndY⟩,
    ⟨0xD5, false, .f2 .cmpZpX⟩,
    ⟨0xD6, true, .f2 .decZpX⟩,
    ⟨0xD8, true, .f1 .cld⟩,
    ⟨0xD9, false, .f3 .cmpAbsY⟩,
    ⟨0xDD, false, .f3 .cmpAbsX⟩,
    ⟨0xDE, true, .f3 .decAbsX⟩ ]

/-- Row Ex of the grid of R68. -/
def opcodeRowE : List Row :=
  [ ⟨0xE0, true, .f2 .cpxImm⟩,
    ⟨0xE1, false, .f2 .sbcIndX⟩,
    ⟨0xE4, true, .f2 .cpxZp⟩,
    ⟨0xE5, true, .f2 .sbcZp⟩,
    ⟨0xE6, true, .f2 .incZp⟩,
    ⟨0xE8, true, .f1 .inx⟩,
    ⟨0xE9, true, .f2 .sbcImm⟩,
    ⟨0xEA, true, .f1 .nop⟩,
    ⟨0xEC, true, .f3 .cpxAbs⟩,
    ⟨0xED, true, .f3 .sbcAbs⟩,
    ⟨0xEE, true, .f3 .incAbs⟩ ]

/-- Row Fx of the grid of R68. -/
def opcodeRowF : List Row :=
  [ ⟨0xF0, true, .f2 .beq⟩,
    ⟨0xF1, false, .f2 .sbcIndY⟩,
    ⟨0xF5, false, .f2 .sbcZpX⟩,
    ⟨0xF6, true, .f2 .incZpX⟩,
    ⟨0xF8, true, .f1 .sed⟩,
    ⟨0xF9, false, .f3 .sbcAbsY⟩,
    ⟨0xFD, false, .f3 .sbcAbsX⟩,
    ⟨0xFE, true, .f3 .incAbsX⟩ ]

/-- The opcode map: the 151 documented rows (R67, R68, R164). -/
def opcodeTable : List Row :=
  opcodeRow0 ++ opcodeRow1 ++ opcodeRow2 ++ opcodeRow3 ++ opcodeRow4 ++ opcodeRow5 ++ opcodeRow6 ++ opcodeRow7 ++
  opcodeRow8 ++ opcodeRow9 ++ opcodeRowA ++ opcodeRowB ++ opcodeRowC ++ opcodeRowD ++ opcodeRowE ++ opcodeRowF

/-- The row an opcode byte selects; `none` for the 105 byte values that have none (R69). -/
def lookupOpcode (op : Byte) : Option Row := opcodeTable.find? (fun r => r.opcode == op)

/-- Why bytes are no instruction. -/
inductive DecodeError where
  /-- There is no byte. -/
  | empty
  /-- The opcode byte has no row (R69). -/
  | undefinedOpcode (op : Byte)
  /-- The opcode's row is longer than the bytes given (R50). -/
  | truncated (op : Byte)
  deriving DecidableEq, Repr

/-- Decode the instruction at the head of the bytes, and give the bytes after it (R50, R51, R70). -/
def decode : List Byte → Except DecodeError (Instr × List Byte)
  | [] => .error .empty
  | op :: rest =>
    match lookupOpcode op with
    | none => .error (.undefinedOpcode op)
    | some row =>
      match row.form, rest with
      | .f1 i, bs => .ok (i, bs)
      | .f2 f, b1 :: bs => .ok (f b1, bs)
      | .f3 f, b1 :: b2 :: bs => .ok (f (wordOf b2 b1), bs)
      | .f2 _, [] => .error (.truncated op)
      | .f3 _, _ => .error (.truncated op)

/-- The instruction read from an instruction's bits `w`, numbered as spec/opcode_table.json numbers them: byte k of the
instruction is bits 8k+7..8k of `w`. Every bit at or above `nbits` is 0. -/
def decodeTableWord (nbits w : Nat) : Option Instr :=
  match decode (tableBytes nbits w) with
  | .ok (i, _) => some i
  | .error _ => none
where
  /-- The three bytes of the longest instruction, the first at the lowest address. -/
  tableBytes (nbits w : Nat) : List Byte :=
    let bits := w % 2 ^ nbits
    [BitVec.ofNat 8 bits, BitVec.ofNat 8 (bits / 256), BitVec.ofNat 8 (bits / 65536)]

/-- The bytes of an instruction, from the Opcode columns of R67 and R164 and the formats of R51. -/
def encode : Instr → List Byte
  | .ldaImm v => [0xA9, v]
  | .ldaZp b => [0xA5, b]
  | .ldaZpX b => [0xB5, b]
  | .ldaAbs addr => [0xAD, loByte addr, hiByte addr]
  | .ldaAbsX addr => [0xBD, loByte addr, hiByte addr]
  | .ldaAbsY addr => [0xB9, loByte addr, hiByte addr]
  | .ldaIndX b => [0xA1, b]
  | .ldaIndY b => [0xB1, b]
  | .staZp b => [0x85, b]
  | .staZpX b => [0x95, b]
  | .staAbs addr => [0x8D, loByte addr, hiByte addr]
  | .staAbsX addr => [0x9D, loByte addr, hiByte addr]
  | .staAbsY addr => [0x99, loByte addr, hiByte addr]
  | .staIndX b => [0x81, b]
  | .staIndY b => [0x91, b]
  | .ldxImm v => [0xA2, v]
  | .ldxZp b => [0xA6, b]
  | .ldxZpY b => [0xB6, b]
  | .ldxAbs addr => [0xAE, loByte addr, hiByte addr]
  | .ldxAbsY addr => [0xBE, loByte addr, hiByte addr]
  | .ldyImm v => [0xA0, v]
  | .ldyZp b => [0xA4, b]
  | .ldyZpX b => [0xB4, b]
  | .ldyAbs addr => [0xAC, loByte addr, hiByte addr]
  | .ldyAbsX addr => [0xBC, loByte addr, hiByte addr]
  | .stxZp b => [0x86, b]
  | .stxZpY b => [0x96, b]
  | .stxAbs addr => [0x8E, loByte addr, hiByte addr]
  | .styZp b => [0x84, b]
  | .styZpX b => [0x94, b]
  | .styAbs addr => [0x8C, loByte addr, hiByte addr]
  | .adcImm v => [0x69, v]
  | .adcZp b => [0x65, b]
  | .adcZpX b => [0x75, b]
  | .adcAbs addr => [0x6D, loByte addr, hiByte addr]
  | .adcAbsX addr => [0x7D, loByte addr, hiByte addr]
  | .adcAbsY addr => [0x79, loByte addr, hiByte addr]
  | .adcIndX b => [0x61, b]
  | .adcIndY b => [0x71, b]
  | .sbcImm v => [0xE9, v]
  | .sbcZp b => [0xE5, b]
  | .sbcZpX b => [0xF5, b]
  | .sbcAbs addr => [0xED, loByte addr, hiByte addr]
  | .sbcAbsX addr => [0xFD, loByte addr, hiByte addr]
  | .sbcAbsY addr => [0xF9, loByte addr, hiByte addr]
  | .sbcIndX b => [0xE1, b]
  | .sbcIndY b => [0xF1, b]
  | .incZp b => [0xE6, b]
  | .incZpX b => [0xF6, b]
  | .incAbs addr => [0xEE, loByte addr, hiByte addr]
  | .incAbsX addr => [0xFE, loByte addr, hiByte addr]
  | .decZp b => [0xC6, b]
  | .decZpX b => [0xD6, b]
  | .decAbs addr => [0xCE, loByte addr, hiByte addr]
  | .decAbsX addr => [0xDE, loByte addr, hiByte addr]
  | .inx => [0xE8]
  | .dex => [0xCA]
  | .iny => [0xC8]
  | .dey => [0x88]
  | .andImm v => [0x29, v]
  | .andZp b => [0x25, b]
  | .andZpX b => [0x35, b]
  | .andAbs addr => [0x2D, loByte addr, hiByte addr]
  | .andAbsX addr => [0x3D, loByte addr, hiByte addr]
  | .andAbsY addr => [0x39, loByte addr, hiByte addr]
  | .andIndX b => [0x21, b]
  | .andIndY b => [0x31, b]
  | .oraImm v => [0x09, v]
  | .oraZp b => [0x05, b]
  | .oraZpX b => [0x15, b]
  | .oraAbs addr => [0x0D, loByte addr, hiByte addr]
  | .oraAbsX addr => [0x1D, loByte addr, hiByte addr]
  | .oraAbsY addr => [0x19, loByte addr, hiByte addr]
  | .oraIndX b => [0x01, b]
  | .oraIndY b => [0x11, b]
  | .eorImm v => [0x49, v]
  | .eorZp b => [0x45, b]
  | .eorZpX b => [0x55, b]
  | .eorAbs addr => [0x4D, loByte addr, hiByte addr]
  | .eorAbsX addr => [0x5D, loByte addr, hiByte addr]
  | .eorAbsY addr => [0x59, loByte addr, hiByte addr]
  | .eorIndX b => [0x41, b]
  | .eorIndY b => [0x51, b]
  | .aslAcc => [0x0A]
  | .aslZp b => [0x06, b]
  | .aslZpX b => [0x16, b]
  | .aslAbs addr => [0x0E, loByte addr, hiByte addr]
  | .aslAbsX addr => [0x1E, loByte addr, hiByte addr]
  | .lsrAcc => [0x4A]
  | .lsrZp b => [0x46, b]
  | .lsrZpX b => [0x56, b]
  | .lsrAbs addr => [0x4E, loByte addr, hiByte addr]
  | .lsrAbsX addr => [0x5E, loByte addr, hiByte addr]
  | .rolAcc => [0x2A]
  | .rolZp b => [0x26, b]
  | .rolZpX b => [0x36, b]
  | .rolAbs addr => [0x2E, loByte addr, hiByte addr]
  | .rolAbsX addr => [0x3E, loByte addr, hiByte addr]
  | .rorAcc => [0x6A]
  | .rorZp b => [0x66, b]
  | .rorZpX b => [0x76, b]
  | .rorAbs addr => [0x6E, loByte addr, hiByte addr]
  | .rorAbsX addr => [0x7E, loByte addr, hiByte addr]
  | .bcc off => [0x90, off]
  | .bcs off => [0xB0, off]
  | .beq off => [0xF0, off]
  | .bmi off => [0x30, off]
  | .bne off => [0xD0, off]
  | .bpl off => [0x10, off]
  | .bvc off => [0x50, off]
  | .bvs off => [0x70, off]
  | .jmpAbs addr => [0x4C, loByte addr, hiByte addr]
  | .jmpInd ptr => [0x6C, loByte ptr, hiByte ptr]
  | .jsr addr => [0x20, loByte addr, hiByte addr]
  | .rts => [0x60]
  | .pha => [0x48]
  | .php => [0x08]
  | .pla => [0x68]
  | .plp => [0x28]
  | .tsx => [0xBA]
  | .txs => [0x9A]
  | .clc => [0x18]
  | .sec => [0x38]
  | .cli => [0x58]
  | .sei => [0x78]
  | .clv => [0xB8]
  | .cld => [0xD8]
  | .sed => [0xF8]
  | .cmpImm v => [0xC9, v]
  | .cmpZp b => [0xC5, b]
  | .cmpZpX b => [0xD5, b]
  | .cmpAbs addr => [0xCD, loByte addr, hiByte addr]
  | .cmpAbsX addr => [0xDD, loByte addr, hiByte addr]
  | .cmpAbsY addr => [0xD9, loByte addr, hiByte addr]
  | .cmpIndX b => [0xC1, b]
  | .cmpIndY b => [0xD1, b]
  | .cpxImm v => [0xE0, v]
  | .cpxZp b => [0xE4, b]
  | .cpxAbs addr => [0xEC, loByte addr, hiByte addr]
  | .cpyImm v => [0xC0, v]
  | .cpyZp b => [0xC4, b]
  | .cpyAbs addr => [0xCC, loByte addr, hiByte addr]
  | .bitZp b => [0x24, b]
  | .bitAbs addr => [0x2C, loByte addr, hiByte addr]
  | .nop => [0xEA]
  | .brk => [0x00]
  | .rti => [0x40]
  | .tax => [0xAA]
  | .tay => [0xA8]
  | .txa => [0x8A]
  | .tya => [0x98]

end Sys2Proof
end

