-- ==== Sys2Proof/Machine/State.lean ====
section
/-! DEFINITION. The state of the machine as plain data: the six registers, the memory and the two hidden bits of 10_state.md R10
and R26, the model's own fields for the environment, the free values and the observer's cycle count, the parameters the
machine is built with; the reasons a step is refused; and the state right after reset (R27). -/

namespace Sys2Proof.Machine

/-- The faults of the machine: there is none. No instruction can fault, and the CPU faults on no address (60_exceptions.md R181,
20_memory.md R36, 92 D28); a situation the spec gives no meaning is refused. -/
inductive Fault where
  deriving DecidableEq, Repr

/-- Why a step is refused: the spec gives the situation no meaning (00_scope.md glossary, Refuse). -/
inductive Refusal where
  /-- Raised by a dispatch arm whose instruction has no meaning yet; no arm of this model raises it. Safe. -/
  | notModelled (mnemonic : String)
  /-- Raised by instruction fetch for an opcode byte with no row, or with a supplement row while ADMIT_SUPPLEMENT is false
  (30_encoding.md R52 (3), R69). Safe: the chip does something undocumented. -/
  | undefinedOpcode (op : Byte)
  /-- Raised by every read and write of a `device` address (20_memory.md R36, R38). Safe: the device's behaviour is not in the
  spec. -/
  | deviceAccess (addr : Addr)
  /-- Raised by every read and write (instruction fetch, operand, pointer, stack, vector) of an address PLATFORM_MAP calls
  `unmapped` or gives to no region (20_memory.md R36, 93 U4). Safe: the chip goes on with a byte the spec does not state. -/
  | unmappedAddress (addr : Addr)
  /-- Raised by ADC and SBC with D=1 under DECIMAL_ARITH = refuse (41_arithmetic.md R90, R91). Safe: the spec defines no
  decimal result. -/
  | decimalArithmetic (m : Mnemonic)
  deriving DecidableEq, Repr

/-- An operation that gives a value or is refused. -/
abbrev Access (α : Type) := Except Refusal α

/-- The six stored flags of P (10_state.md R16 to R24). Bits 5 and 4 of P are not storage: they exist only in a pushed byte. -/
structure Flags where
  n : Bool
  v : Bool
  d : Bool
  i : Bool
  z : Bool
  c : Bool
  deriving DecidableEq, Repr

/-- What becomes, at a reset, of the registers 10_state.md R27 leaves unspecified (A, X, Y, N, V, D, Z, C). Log entry 12. -/
inductive ResetInput where
  /-- They keep what they held (70_reset_and_hazards.md R210, 10_state.md R25). -/
  | keep
  /-- They take free values (10_state.md R27; 95_test_vectors.md S6: no proof may depend on their being kept). -/
  | draw
  deriving DecidableEq, Repr

/-- What the environment does at one instruction boundary (60_exceptions.md R197): whether it asserts reset, whether it makes an
NMI edge, the level it sets `irq_line` to, and whether an enabled interrupt is put off at this boundary, which is the "may"
of R184. -/
structure Boundary where
  reset : Option ResetInput
  nmiEdge : Bool
  irqLine : Bool
  defer : Bool
  deriving DecidableEq, Repr

/-- The contents of memory: (cell, byte) pairs, cells strictly rising, none equal to what an unlisted cell reads as
(`Memory.wf`). The bytes of RAM and of ROM are both here; which is which is the map's. -/
abbrev Memory := List Host.Cell

/-- The state. The first eight fields are the machine's (10_state.md R10, R26); `irqLine`, `inputs`, `draws`, `cycles` and `cfg`
are the model's own (R10 calls the lines, the draws and the map parameters of the step). -/
@[ext]
structure State where
  /-- A, the accumulator (R11). -/
  a : Byte
  /-- X, an index register (R12). -/
  x : Byte
  /-- Y, an index register (R13). -/
  y : Byte
  /-- SP, the low byte of the stack address (R14). -/
  sp : Byte
  /-- PC, the address of the next opcode byte (R15). -/
  pc : Addr
  /-- The stored flags N V D I Z C (R16). -/
  flags : Flags
  /-- `nmi_pending`, the latched NMI edge (R26, 60_exceptions.md R183). -/
  nmiPending : Bool
  /-- `Ipoll`, the interrupt disable the next boundary consults (R26, 60_exceptions.md R190). -/
  ipoll : Bool
  /-- Memory (20_memory.md R30). -/
  mem : Memory
  /-- The level of `irq_line` (60_exceptions.md R182), as the environment last set it. -/
  irqLine : Bool
  /-- What the environment does at the coming boundaries, the next first. Log entries 10 and 11. -/
  inputs : List Boundary
  /-- How many resets have drawn free values (R27). Log entry 12. -/
  draws : Nat
  /-- The observer's count of clock cycles (70_reset_and_hazards.md R218): no result depends on it. -/
  cycles : Nat
  /-- The parameters of 00_scope.md R4. No step changes them. -/
  cfg : Config
  deriving DecidableEq, Repr

/-- The byte a memory cell that is not listed holds. DESIGN CHOICE, unsafe (log entry 2): RAM is unspecified at power-on. -/
def Memory.background : Byte := 0x00

/-- The state right after the reset sequence (10_state.md R27, 70_reset_and_hazards.md R210): I = 1, `Ipoll` = 1, `nmi_pending` = 0
and PC the reset vector of the empty memory are the spec's; A, X, Y, SP, N, V, D, Z and C are unspecified there and 0 here
(DESIGN CHOICE, unsafe, log entry 1). Log entry 3 says how a program comes to run. -/
def State.reset : State :=
  { a := 0x00
    x := 0x00
    y := 0x00
    sp := 0x00
    pc := Memory.background ++ Memory.background
    flags := { n := false, v := false, d := false, i := true, z := false, c := false }
    nmiPending := false
    ipoll := true
    mem := []
    irqLine := false
    inputs := []
    draws := 0
    cycles := 0
    cfg := Config.standard }

/-- What `exec` and `step` answer. -/
abbrev Result := Host.Outcome State Fault Refusal

end Sys2Proof.Machine
end

