-- ==== Sys2Proof/Machine/Flags.lean ====
section
/-! DEFINITION. Every flag computation of the spec: N and Z of a result (10_state.md R28), the status byte and its two
conversions (R16), and the flag results of addition, subtraction, comparison, bit test, shifts and rotates
(41_arithmetic.md, 42_logic_shift.md, 45_compare_bit.md). -/

namespace Sys2Proof.Machine

/-- `setNZ` (R28): N is bit 7 of the value, Z says that it is zero. -/
def Flags.setNZ (f : Flags) (v : Byte) : Flags := { f with n := v.msb, z := v == 0 }

/-- `Pbyte(b)` (R16): N V 1 b D I Z C from bit 7 down. -/
def Flags.toByte (f : Flags) (b : Bool) : Byte :=
  BitVec.ofBool f.n ++ BitVec.ofBool f.v ++ BitVec.ofBool true ++ BitVec.ofBool b ++
    BitVec.ofBool f.d ++ BitVec.ofBool f.i ++ BitVec.ofBool f.z ++ BitVec.ofBool f.c

/-- `setP(v)` (R16): bits 7 6 3 2 1 0 are N V D I Z C; bits 5 and 4 have no effect. -/
def Flags.ofByte (v : Byte) : Flags :=
  { n := v.getLsbD 7
    v := v.getLsbD 6
    d := v.getLsbD 3
    i := v.getLsbD 2
    z := v.getLsbD 1
    c := v.getLsbD 0 }

/-- The exact sum `A + m + C`, an integer in 0..511 (R90). -/
def addSum (a m : Byte) (c : Bool) : Nat := a.toNat + m.toNat + c.toNat

/-- The result and the flags of ADC (R90): the sum modulo 256, its N and Z, V of `(A ^ r) & (m ^ r) & $80`, C of a sum over
255. -/
def addFlags (a m : Byte) (f : Flags) : Byte × Flags :=
  let t := addSum a m f.c
  let r := BitVec.ofNat 8 t
  (r, { f.setNZ r with v := ((a ^^^ r) &&& (m ^^^ r)).msb, c := decide (255 < t) })

/-- The result and the flags of SBC (R91): those of ADC of the one's complement of the operand. -/
def subFlags (a m : Byte) (f : Flags) : Byte × Flags := addFlags a (m ^^^ 0xFF) f

/-- The flags of CMP, CPX and CPY (R150): C is the unsigned `reg ≥ m`, N and Z are those of the difference modulo 256. -/
def Flags.compare (f : Flags) (reg m : Byte) : Flags :=
  { f.setNZ (reg - m) with c := decide (m.toNat ≤ reg.toNat) }

/-- The flags of BIT (R153): Z of `A & m`, N and V bits 7 and 6 of the operand itself. -/
def Flags.bitTest (f : Flags) (a m : Byte) : Flags :=
  { f with z := (a &&& m) == 0, n := m.getLsbD 7, v := m.getLsbD 6 }

/-- ASL (R103): the old bit 7 goes to C, bit 0 becomes 0. -/
def shiftLeft (v : Byte) (f : Flags) : Byte × Flags :=
  let r := v <<< 1
  (r, { f.setNZ r with c := v.getLsbD 7 })

/-- LSR (R104): the old bit 0 goes to C, bit 7 becomes 0. -/
def shiftRight (v : Byte) (f : Flags) : Byte × Flags :=
  let r := v >>> 1
  (r, { f.setNZ r with c := v.getLsbD 0 })

/-- ROL (R105): the old C enters at bit 0 and the old bit 7 leaves into C. -/
def rotateLeft (v : Byte) (f : Flags) : Byte × Flags :=
  let r := (v <<< 1) ||| (BitVec.ofBool f.c).setWidth 8
  (r, { f.setNZ r with c := v.getLsbD 7 })

/-- ROR (R106): the old C enters at bit 7 and the old bit 0 leaves into C. -/
def rotateRight (v : Byte) (f : Flags) : Byte × Flags :=
  let r := (v >>> 1) ||| ((BitVec.ofBool f.c).setWidth 8 <<< 7)
  (r, { f.setNZ r with c := v.getLsbD 0 })

/-- INC (R92), INX (R94), INY (R96): one more modulo 256, N and Z only. -/
def increment (v : Byte) (f : Flags) : Byte × Flags := (v + 1, f.setNZ (v + 1))

/-- DEC (R93), DEX (R95), DEY (R97): one less modulo 256, N and Z only. -/
def decrement (v : Byte) (f : Flags) : Byte × Flags := (v - 1, f.setNZ (v - 1))

end Sys2Proof.Machine
end

