-- ==== Sys2Proof/Machine/Ops.lean ====
section
/-! DEFINITION. The named operations over memory and registers: the canonical memory, PLATFORM_MAP, the two access primitives
of 20_memory.md R36, the register updates, the stack primitives of 44_stack_flags.md R130 and R131, how an instruction ends
(30_encoding.md R52 (7), (8)), and taking an exception and returning from one (60_exceptions.md R185, R189). -/

namespace Sys2Proof.Machine

/-! ### Memory -/

/-- The byte a memory cell holds. -/
def Memory.read : Memory → Nat → Byte
  | [], _ => Memory.background
  | (k, v) :: m, c => if k = c then v else Memory.read m c

/-- Put a cell in at its place in the rising order. -/
def Memory.place : Memory → Host.Cell → Memory
  | [], e => [e]
  | k :: m, e => if e.1 < k.1 then e :: k :: m else k :: Memory.place m e

/-- Store a byte in a memory cell, keeping the canonical form: a cell that comes to hold the background byte is not listed. -/
def Memory.write (m : Memory) (c : Nat) (v : Byte) : Memory :=
  let others : Memory := m.filter (fun e => e.1 != c)
  if v = Memory.background then others else Memory.place others (c, v)

/-- The canonical form: cells strictly rise and are cells of the address space (20_memory.md R30), and none is listed with the
background byte. -/
def Memory.wf : Memory → Bool
  | [] => true
  | (k, v) :: m => decide (k < 65536) && v != Memory.background && m.all (fun e => decide (k < e.1)) && Memory.wf m

/-! ### PLATFORM_MAP -/

/-- The region that holds an address: the first of the map that does. -/
def regionOf (cfg : Config) (addr : Addr) : Option Region :=
  cfg.map.find? (fun r => decide (r.first.toNat ≤ addr.toNat) && decide (addr.toNat ≤ r.last.toNat))

/-- The class of an address (20_memory.md R36); an address in no region is unmapped. -/
def State.classOf (s : State) (addr : Addr) : AddrClass :=
  match regionOf s.cfg addr with
  | some r => r.cls
  | none => .unmapped

/-- The memory cell an address reaches: the address itself where its region's storage begins at the region's first address and
does not repeat, another where the platform mirrors (20_memory.md R44). -/
def State.cellOf (s : State) (addr : Addr) : Nat :=
  match regionOf s.cfg addr with
  | some r => (r.base.toNat + (addr.toNat - r.first.toNat) % r.span) % 65536
  | none => addr.toNat

/-- Whether the spec gives accesses to an address a meaning: it is `ram` or `rom` (20_memory.md R36). -/
def State.accessible (s : State) (addr : Addr) : Bool :=
  match s.classOf addr with
  | .ram => true
  | .rom => true
  | .device => false
  | .unmapped => false

/-- The byte in the cell an address reaches, whatever the address's class. -/
def State.peek (s : State) (addr : Addr) : Byte := s.mem.read (s.cellOf addr)

/-- Memory after a byte is stored at an address: changed in one cell at a `ram` address, unchanged at any other
(20_memory.md R36). -/
def State.stored (s : State) (addr : Addr) (v : Byte) : Memory :=
  match s.classOf addr with
  | .ram => s.mem.write (s.cellOf addr) v
  | .rom => s.mem
  | .device => s.mem
  | .unmapped => s.mem

/-- The state after a byte is stored at an address. -/
def State.poke (s : State) (addr : Addr) (v : Byte) : State := { s with mem := s.stored addr v }

/-- Refuse an address whose class has no meaning, `device` or `unmapped` (20_memory.md R36, log entry 6). -/
def State.checkAddress (s : State) (addr : Addr) : Access Unit :=
  match s.classOf addr with
  | .ram => .ok ()
  | .rom => .ok ()
  | .device => .error (.deviceAccess addr)
  | .unmapped => .error (.unmappedAddress addr)

/-- `MemRead(addr, 1)` (20_memory.md R36). -/
def State.read (s : State) (addr : Addr) : Access Byte := do
  s.checkAddress addr
  pure (s.peek addr)

/-- `MemWrite(addr, 1, v)` (20_memory.md R36). -/
def State.write (s : State) (addr : Addr) (v : Byte) : Access State := do
  s.checkAddress addr
  pure (s.poke addr v)

/-- Two one-byte reads that make a 16-bit value, the low byte first, at the two addresses given (20_memory.md R34, R37). -/
def State.readPair (s : State) (lowAt highAt : Addr) : Access Addr := do
  let l ← s.read lowAt
  let h ← s.read highAt
  pure (wordOf h l)

/-- `Read16(addr)` of 00_scope.md 6.3, used for vectors only. -/
def State.readVector (s : State) (addr : Addr) : Access Addr := s.readPair addr (addr + 1)

/-! ### Registers -/

/-- Write A. -/
def State.setA (s : State) (v : Byte) : State := { s with a := v }

/-- Write X. -/
def State.setX (s : State) (v : Byte) : State := { s with x := v }

/-- Write Y. -/
def State.setY (s : State) (v : Byte) : State := { s with y := v }

/-- Write SP. -/
def State.setSp (s : State) (v : Byte) : State := { s with sp := v }

/-- Write PC. -/
def State.setPc (s : State) (v : Addr) : State := { s with pc := v }

/-- Write the six stored flags. -/
def State.setFlags (s : State) (f : Flags) : State := { s with flags := f }

/-- Write `Ipoll`. -/
def State.setIpoll (s : State) (p : Bool) : State := { s with ipoll := p }

/-- Write `nmi_pending`. -/
def State.setNmiPending (s : State) (p : Bool) : State := { s with nmiPending := p }

/-- Count clock cycles (70_reset_and_hazards.md R218). -/
def State.tick (s : State) (n : Nat) : State := { s with cycles := s.cycles + n }

/-! ### The stack -/

/-- The stack address `$0100 + SP` (20_memory.md R32). -/
def stackAddr (sp : Byte) : Addr := wordOf 0x01 sp

/-- `push(v)` (44_stack_flags.md R130): store at `$0100 + SP`, then decrement SP modulo 256. -/
def State.push (s : State) (v : Byte) : Access State := do
  let t ← s.write (stackAddr s.sp) v
  pure (t.setSp (s.sp - 1))

/-- `pull()` (44_stack_flags.md R131): increment SP modulo 256, then read at `$0100 + SP`. -/
def State.pull (s : State) : Access (Byte × State) := do
  let t := s.setSp (s.sp + 1)
  let v ← t.read (stackAddr t.sp)
  pure (v, t)

/-- Push a 16-bit value, the high byte first (20_memory.md R34). -/
def State.pushWord (s : State) (w : Addr) : Access State := do
  let t ← s.push (hiByte w)
  t.push (loByte w)

/-- Pull a 16-bit value, the low byte first. -/
def State.pullWord (s : State) : Access (Addr × State) := do
  let (l, t) ← s.pull
  let (h, u) ← t.pull
  pure (wordOf h l, u)

/-! ### How an instruction ends -/

/-- The end of an instruction that leaves PC at `target` (30_encoding.md R52 (7), (8)): `Ipoll` takes I as it is now
(60_exceptions.md R190). -/
def State.endAt (s : State) (target : Addr) (cyc : Nat) : State := ((s.setPc target).setIpoll s.flags.i).tick cyc

/-- The end of an instruction that does not assign PC: PC moves past its `len` bytes, modulo 65536 (10_state.md R15). -/
def State.advance (s : State) (len cyc : Nat) : State := s.endAt (s.pc + BitVec.ofNat 16 len) cyc

/-- The end of CLI, SEI and PLP: `Ipoll` takes `iOld`, the I of before the instruction (60_exceptions.md R190). -/
def State.advanceLate (s : State) (iOld : Bool) (len cyc : Nat) : State := (s.advance len cyc).setIpoll iOld

/-- The answer of a meaning or of an event: the state it gives, or why it is refused. -/
def outcome : Access State → Result
  | .ok s => .next s
  | .error r => .refused r

/-! ### Taking an exception, and returning from one -/

/-- The NMI vector (60_exceptions.md R186). -/
def nmiVector : Addr := 0xFFFA

/-- The reset vector (60_exceptions.md R186). -/
def resetVector : Addr := 0xFFFC

/-- The vector IRQ and BRK share (60_exceptions.md R186). -/
def irqVector : Addr := 0xFFFE

/-- Taking an exception (60_exceptions.md R185, 46_system.md R156): push the return address, high byte first, and the status
byte with `brk` at bit 4; set I and `Ipoll`; load PC from the vector. It takes 7 cycles. -/
def State.takeException (s : State) (ret : Addr) (brk : Bool) (vector : Addr) : Access State := do
  let t ← s.pushWord ret
  let u ← t.push (s.flags.toByte brk)
  let w := (u.setFlags { s.flags with i := true }).setIpoll true
  let target ← w.readVector vector
  pure ((w.setPc target).tick 7)

/-- Returning from an exception (46_system.md R157, 60_exceptions.md R189): pull the status byte into the six flags, then PC,
low byte first; `Ipoll` takes the restored I at once. It takes 6 cycles. -/
def State.returnFromException (s : State) : Access State := do
  let (p, t) ← s.pull
  let (target, u) ← (t.setFlags (Flags.ofByte p)).pullWord
  pure (u.endAt target 6)

end Sys2Proof.Machine
end

