-- ==== Sys2Proof/Machine/Boundary.lean ====
section
/-! DEFINITION. What happens at an instruction boundary, before any instruction: what the environment does there
(60_exceptions.md R197), which event is taken (R184), the entry of NMI and IRQ (R185), the reset sequence
(70_reset_and_hazards.md R210), and the fetch of an instruction (30_encoding.md R52 (2) to (4)). -/

namespace Sys2Proof.Machine

/-- The boundary at which the environment does nothing: no reset, no NMI edge, `irq_line` as it was. -/
def quietBoundary (s : State) (defer : Bool) : Boundary :=
  { reset := none, nmiEdge := false, irqLine := s.irqLine, defer := defer }

/-- What the environment does at this boundary; where nothing is listed it does nothing, and an enabled interrupt is taken
(log entries 10 and 11). -/
def State.boundary (s : State) : Boundary :=
  match s.inputs with
  | [] => quietBoundary s false
  | b :: _ => b

/-- The state with this boundary's inputs applied (R182, R183, R197): the level of `irq_line` is set, an NMI edge is latched. -/
def State.sampled (s : State) : State :=
  match s.inputs with
  | [] => s
  | b :: rest => { s with inputs := rest, irqLine := b.irqLine, nmiPending := s.nmiPending || b.nmiEdge }

/-- The three events that are taken at a boundary (R180). -/
inductive Event where
  | reset (r : ResetInput)
  | nmi
  | irq
  deriving DecidableEq, Repr

/-- The event taken at a boundary, by R184's priority: reset, then a pending NMI, then an IRQ whose line is active while `Ipoll`
is 0; the latter two only where the boundary does not put them off. -/
def State.event (s : State) (b : Boundary) : Option Event :=
  match b.reset with
  | some r => some (.reset r)
  | none =>
    if s.nmiPending then (if b.defer then none else some .nmi)
    else if s.irqLine && !s.ipoll then (if b.defer then none else some .irq)
    else none

/-- The entry of an NMI (R185): the pending bit is cleared and PC comes from $FFFA. -/
def State.nmiEntry (s : State) : Access State := do
  let t ← s.takeException s.pc false nmiVector
  pure (t.setNmiPending false)

/-- The entry of an IRQ (R185): PC comes from $FFFE. -/
def State.irqEntry (s : State) : Access State := s.takeException s.pc false irqVector

/-- The registers a reset leaves unspecified (10_state.md R27), as the reset's input says: kept (70_reset_and_hazards.md R210),
or at the reset's free values. I is 1 either way. -/
def State.resetRegisters (s : State) : ResetInput → State
  | .keep => { s with flags := { s.flags with i := true } }
  | .draw =>
    { s with
      a := Config.resetA s.draws
      x := Config.resetX s.draws
      y := Config.resetY s.draws
      flags := { Flags.ofByte (Config.resetFlags s.draws) with i := true }
      draws := s.draws + 1 }

/-- The reset sequence (70_reset_and_hazards.md R210): SP falls by 3 and no memory is written; I and `Ipoll` are 1,
`nmi_pending` is 0, PC comes from $FFFC; 7 cycles. -/
def State.resetSequence (s : State) (r : ResetInput) : Access State := do
  let t := (((s.resetRegisters r).setSp (s.sp - 3)).setIpoll true).setNmiPending false
  let target ← t.readVector resetVector
  pure ((t.setPc target).tick 7)

/-- Take an event. -/
def State.takeEvent (s : State) : Event → Access State
  | .reset r => s.resetSequence r
  | .nmi => s.nmiEntry
  | .irq => s.irqEntry

/-- Read `n` bytes from an address on, addresses modulo 65536 (30_encoding.md R50, 20_memory.md R43). -/
def State.readBytes (s : State) (addr : Addr) : Nat → Access (List Byte)
  | 0 => .ok []
  | n + 1 => do
    let b ← s.read addr
    let bs ← s.readBytes (addr + 1) n
    pure (b :: bs)

/-- Fetch the instruction at PC (30_encoding.md R52 (2) to (4)): the opcode; the refusal of an opcode with no row, or with a row
that is not admitted; then the operand bytes. -/
def State.fetch (s : State) : Access Instr := do
  let op ← s.read s.pc
  match lookupOpcode op with
  | none => .error (.undefinedOpcode op)
  | some row =>
    match row.inSource || s.cfg.admitSupplement with
    | false => .error (.undefinedOpcode op)
    | true => do
      let operands ← s.readBytes (s.pc + 1) (row.form.length - 1)
      match decode (op :: operands) with
      | .ok (i, _) => pure i
      | .error _ => .error (.undefinedOpcode op)

/-- The bytes `bs` placed in the cells that the addresses from `addr` on reach, whatever their class: a load from outside the
machine (log entries 3 and 24). -/
def State.loadBytes (s : State) (addr : Addr) : List Byte → State
  | [] => s
  | b :: bs => State.loadBytes { s with mem := s.mem.write (s.cellOf addr) b } (addr + 1) bs

/-- The state in which the coming boundary takes no event: unchanged where none would be taken, else with a boundary put before
the others at which the environment does nothing and an enabled interrupt is put off. -/
def State.withQuietBoundary (s : State) : State :=
  match s.inputs, s.event s.boundary with
  | [], none => s
  | _, _ => { s with inputs := quietBoundary s true :: s.inputs }

/-- The instruction with the bits `w` (spec/opcode_table.json's numbering) stored at PC, and no event at the coming boundary. -/
def State.placeTableWord (s : State) (nbits w : Nat) : State :=
  (s.loadBytes s.pc (decodeTableWord.tableBytes nbits w)).withQuietBoundary

end Sys2Proof.Machine
end

