-- ==== Sys2Proof/Machine/Operands.lean ====
section
/-! DEFINITION. Every operand form: the effective address of each addressing mode (30_encoding.md R56 to R65, with the wraps of
20_memory.md R43), the operand byte, the length (R50), and the cycle count with its page-crossing penalty (R73,
70_reset_and_hazards.md R214 to R216). -/

namespace Sys2Proof.Machine

/-- A zero-page address: the byte, zero-extended (R56). -/
def zeroPageAddr (b : Byte) : Addr := wordOf 0x00 b

/-- The address that holds the high byte of the pointer at `p` in Indirect mode: only the low address byte is incremented
(R62). -/
def pointerHigh (p : Addr) : Addr := wordOf (hiByte p) (loByte p + 1)

/-- The pointer at a zero-page address; its second byte wraps inside the zero page (R63, R64, 20_memory.md R31). -/
def State.zeroPagePointer (s : State) (zp : Byte) : Access Addr :=
  s.readPair (zeroPageAddr zp) (zeroPageAddr (zp + 1))

/-- The target of a branch: the address of the next instruction plus the sign-extended offset (R65). -/
def State.branchTarget (s : State) (off : Byte) : Addr := s.pc + 2 + off.signExtend 16

/-- The effective address of a mode, with PC the address of the opcode. For Indirect and Relative it is the target (R56 to
R65). -/
def State.effectiveAddress (s : State) : AddrMode → Access Addr
  | .zeroPage b => .ok (zeroPageAddr b)
  | .zeroPageX b => .ok (zeroPageAddr (b + s.x))
  | .zeroPageY b => .ok (zeroPageAddr (b + s.y))
  | .absolute addr => .ok addr
  | .absoluteX addr => .ok (addr + s.x.setWidth 16)
  | .absoluteY addr => .ok (addr + s.y.setWidth 16)
  | .indirect ptr => s.readPair ptr (pointerHigh ptr)
  | .indirectX b => s.zeroPagePointer (b + s.x)
  | .indirectY b => do
    let base ← s.zeroPagePointer b
    pure (base + s.y.setWidth 16)
  | .relative off => .ok (s.branchTarget off)

/-- The operand byte of a reading instruction (R54 to R64). -/
def State.operandByte (s : State) : Operand → Access Byte
  | .accumulator => .ok s.a
  | .immediate v => .ok v
  | .memory m => do
    let ea ← s.effectiveAddress m
    s.read ea

/-- The length of an instruction of the mode (R50). -/
def modeLength : AddrMode → Nat
  | .zeroPage _ => 2
  | .zeroPageX _ => 2
  | .zeroPageY _ => 2
  | .absolute _ => 3
  | .absoluteX _ => 3
  | .absoluteY _ => 3
  | .indirect _ => 3
  | .indirectX _ => 2
  | .indirectY _ => 2
  | .relative _ => 2

/-- The length of an instruction with the operand (R50). -/
def operandLength : Operand → Nat
  | .accumulator => 1
  | .immediate _ => 2
  | .memory m => modeLength m

/-- The length of an instruction: 1 in Implied mode, otherwise its operand's (R50). -/
def instrLength (i : Instr) : Nat :=
  match i.operand with
  | none => 1
  | some o => operandLength o

/-- The page-crossing predicate (R73): the low byte of the base address plus the index passes 255, or a branch target lies in
another page than the next instruction. Used for cycle counts only. -/
def State.crossesPage (s : State) : AddrMode → Bool
  | .zeroPage _ => false
  | .zeroPageX _ => false
  | .zeroPageY _ => false
  | .absolute _ => false
  | .absoluteX addr => decide (255 < (loByte addr).toNat + s.x.toNat)
  | .absoluteY addr => decide (255 < (loByte addr).toNat + s.y.toNat)
  | .indirect _ => false
  | .indirectX _ => false
  | .indirectY b => decide (255 < (s.peek (zeroPageAddr b)).toNat + s.y.toNat)
  | .relative off => hiByte (s.branchTarget off) != hiByte (s.pc + 2)

/-- An entry of the Cycles column (70_reset_and_hazards.md R214). -/
inductive Cycles where
  /-- A single figure. -/
  | fixed (n : Nat)
  /-- A range: `n`, and one more when a page is crossed (R215). -/
  | range (n : Nat)
  deriving DecidableEq, Repr

/-- The cycles an entry stands for with the given operand, in the state before the instruction (R215). -/
def State.cycleCount (s : State) (o : Operand) : Cycles → Nat
  | .fixed n => n
  | .range n =>
    match o with
    | .accumulator => n
    | .immediate _ => n
    | .memory m => n + (s.crossesPage m).toNat

end Sys2Proof.Machine
end

