-- ==== Sys2Proof/Machine/Shapes.lean ====
section
/-! DEFINITION. The shapes the instructions share: what a load, a store, an accumulator operation, a read-modify-write, a compare,
a branch and a one-byte register instruction do once their operand form, cycle entry and computation are given. Each
meaning is one of these, or an operation of its own in its family's file. -/

namespace Sys2Proof.Machine

/-- Load the operand byte with `put` and set N and Z from it (R80, R82, R83). -/
def loadInto (put : State → Byte → State) (o : Operand) (c : Cycles) (s : State) : Result :=
  outcome do
    let v ← s.operandByte o
    pure (((put s v).setFlags (s.flags.setNZ v)).advance (operandLength o) (s.cycleCount o c))

/-- Store the byte `v` at the mode's effective address; no flag changes (R81, R84, R85). -/
def storeAt (v : Byte) (m : AddrMode) (c : Cycles) (s : State) : Result :=
  outcome do
    let ea ← s.effectiveAddress m
    let t ← s.write ea v
    pure (t.advance (modeLength m) (s.cycleCount (.memory m) c))

/-- Combine A and the operand byte into A and the flags (R100, R101, R102). -/
def accumulate (f : Byte → Byte → Flags → Byte × Flags) (o : Operand) (c : Cycles) (s : State) : Result :=
  outcome do
    let m ← s.operandByte o
    let r := f s.a m s.flags
    pure (((s.setA r.1).setFlags r.2).advance (operandLength o) (s.cycleCount o c))

/-- The refusal of ADC and SBC with D=1 when DECIMAL_ARITH is `refuse` (R90, R91, 92 D5). -/
def State.checkDecimal (s : State) (mn : Mnemonic) : Access Unit :=
  match s.flags.d, s.cfg.decimal with
  | true, .refuse => .error (.decimalArithmetic mn)
  | true, .ignored => .ok ()
  | false, _ => .ok ()

/-- `accumulate` behind the decimal check (R90, R91). The operand is read first (30_encoding.md R52 (5), (6)). -/
def accumulateBinary (mn : Mnemonic) (f : Byte → Byte → Flags → Byte × Flags) (o : Operand) (c : Cycles) (s : State) :
    Result :=
  outcome do
    let m ← s.operandByte o
    s.checkDecimal mn
    let r := f s.a m s.flags
    pure (((s.setA r.1).setFlags r.2).advance (operandLength o) (s.cycleCount o c))

/-- Read the byte at the effective address, change it, write it back (R92, R93, R103 to R106). -/
def modifyMemory (f : Byte → Flags → Byte × Flags) (m : AddrMode) (c : Cycles) (s : State) : Result :=
  outcome do
    let ea ← s.effectiveAddress m
    let v ← s.read ea
    let r := f v s.flags
    let t ← s.write ea r.1
    pure ((t.setFlags r.2).advance (modeLength m) (s.cycleCount (.memory m) c))

/-- A one-byte, two-cycle instruction that puts a changed register value back (R94 to R97, R103 to R106 in Accumulator
mode). -/
def modifyRegister (put : State → Byte → State) (v : Byte) (f : Byte → Flags → Byte × Flags) (s : State) : Result :=
  let r := f v s.flags
  .next (((put s r.1).setFlags r.2).advance 1 2)

/-- Compare a register with the operand byte: flags only (R150, R151, R152). -/
def compareWith (reg : Byte) (o : Operand) (c : Cycles) (s : State) : Result :=
  outcome do
    let m ← s.operandByte o
    pure ((s.setFlags (s.flags.compare reg m)).advance (operandLength o) (s.cycleCount o c))

/-- A conditional branch (R110): 2 cycles not taken, 3 taken, 4 taken to another page (70_reset_and_hazards.md R216). -/
def branchIf (cond : Bool) (off : Byte) (s : State) : Result :=
  match cond with
  | true => .next (s.endAt (s.branchTarget off) (3 + (s.crossesPage (.relative off)).toNat))
  | false => .next (s.advance 2 2)

/-- A one-byte, two-cycle transfer that sets N and Z from the value copied (R136, R160 to R163). -/
def transferInto (put : State → Byte → State) (v : Byte) (s : State) : Result :=
  .next (((put s v).setFlags (s.flags.setNZ v)).advance 1 2)

/-- A one-byte, two-cycle instruction that writes flags only (R140, R141, R144, R145, R146). -/
def writeFlags (f : Flags) (s : State) : Result := .next ((s.setFlags f).advance 1 2)

end Sys2Proof.Machine
end

