-- ==== Sys2Proof/Machine/Arithmetic.lean ====
section
/-! DEFINITION. The arithmetic of 41_arithmetic.md: ADC, SBC, INC, DEC, INX, DEX, INY, DEY, and the further forms of ADC and SBC
of 47_supplement.md R164. -/

namespace Sys2Proof.Machine

/-- ADC Immediate, opcode $69 (R90). -/
def execAdcImm (v : Byte) (s : State) : Result :=
  accumulateBinary .adc addFlags (.immediate v) (.fixed 2) s

/-- ADC Zero Page, opcode $65 (R90). -/
def execAdcZp (b : Byte) (s : State) : Result :=
  accumulateBinary .adc addFlags (.memory (.zeroPage b)) (.fixed 3) s

/-- ADC Zero Page,X, opcode $75 (R90, R164). -/
def execAdcZpX (b : Byte) (s : State) : Result :=
  accumulateBinary .adc addFlags (.memory (.zeroPageX b)) (.fixed 4) s

/-- ADC Absolute, opcode $6D (R90). -/
def execAdcAbs (addr : Addr) (s : State) : Result :=
  accumulateBinary .adc addFlags (.memory (.absolute addr)) (.fixed 4) s

/-- ADC Absolute,X, opcode $7D (R90, R164). -/
def execAdcAbsX (addr : Addr) (s : State) : Result :=
  accumulateBinary .adc addFlags (.memory (.absoluteX addr)) (.range 4) s

/-- ADC Absolute,Y, opcode $79 (R90, R164). -/
def execAdcAbsY (addr : Addr) (s : State) : Result :=
  accumulateBinary .adc addFlags (.memory (.absoluteY addr)) (.range 4) s

/-- ADC (Indirect,X), opcode $61 (R90, R164). -/
def execAdcIndX (b : Byte) (s : State) : Result :=
  accumulateBinary .adc addFlags (.memory (.indirectX b)) (.fixed 6) s

/-- ADC (Indirect),Y, opcode $71 (R90, R164). -/
def execAdcIndY (b : Byte) (s : State) : Result :=
  accumulateBinary .adc addFlags (.memory (.indirectY b)) (.range 5) s

/-- SBC Immediate, opcode $E9 (R91). -/
def execSbcImm (v : Byte) (s : State) : Result :=
  accumulateBinary .sbc subFlags (.immediate v) (.fixed 2) s

/-- SBC Zero Page, opcode $E5 (R91). -/
def execSbcZp (b : Byte) (s : State) : Result :=
  accumulateBinary .sbc subFlags (.memory (.zeroPage b)) (.fixed 3) s

/-- SBC Zero Page,X, opcode $F5 (R91, R164). -/
def execSbcZpX (b : Byte) (s : State) : Result :=
  accumulateBinary .sbc subFlags (.memory (.zeroPageX b)) (.fixed 4) s

/-- SBC Absolute, opcode $ED (R91). -/
def execSbcAbs (addr : Addr) (s : State) : Result :=
  accumulateBinary .sbc subFlags (.memory (.absolute addr)) (.fixed 4) s

/-- SBC Absolute,X, opcode $FD (R91, R164). -/
def execSbcAbsX (addr : Addr) (s : State) : Result :=
  accumulateBinary .sbc subFlags (.memory (.absoluteX addr)) (.range 4) s

/-- SBC Absolute,Y, opcode $F9 (R91, R164). -/
def execSbcAbsY (addr : Addr) (s : State) : Result :=
  accumulateBinary .sbc subFlags (.memory (.absoluteY addr)) (.range 4) s

/-- SBC (Indirect,X), opcode $E1 (R91, R164). -/
def execSbcIndX (b : Byte) (s : State) : Result :=
  accumulateBinary .sbc subFlags (.memory (.indirectX b)) (.fixed 6) s

/-- SBC (Indirect),Y, opcode $F1 (R91, R164). -/
def execSbcIndY (b : Byte) (s : State) : Result :=
  accumulateBinary .sbc subFlags (.memory (.indirectY b)) (.range 5) s

/-- INC Zero Page, opcode $E6 (R92). -/
def execIncZp (b : Byte) (s : State) : Result :=
  modifyMemory increment (.zeroPage b) (.fixed 5) s

/-- INC Zero Page,X, opcode $F6 (R92). -/
def execIncZpX (b : Byte) (s : State) : Result :=
  modifyMemory increment (.zeroPageX b) (.fixed 6) s

/-- INC Absolute, opcode $EE (R92). -/
def execIncAbs (addr : Addr) (s : State) : Result :=
  modifyMemory increment (.absolute addr) (.fixed 6) s

/-- INC Absolute,X, opcode $FE (R92). -/
def execIncAbsX (addr : Addr) (s : State) : Result :=
  modifyMemory increment (.absoluteX addr) (.fixed 7) s

/-- DEC Zero Page, opcode $C6 (R93). -/
def execDecZp (b : Byte) (s : State) : Result :=
  modifyMemory decrement (.zeroPage b) (.fixed 5) s

/-- DEC Zero Page,X, opcode $D6 (R93). -/
def execDecZpX (b : Byte) (s : State) : Result :=
  modifyMemory decrement (.zeroPageX b) (.fixed 6) s

/-- DEC Absolute, opcode $CE (R93). -/
def execDecAbs (addr : Addr) (s : State) : Result :=
  modifyMemory decrement (.absolute addr) (.fixed 6) s

/-- DEC Absolute,X, opcode $DE (R93). -/
def execDecAbsX (addr : Addr) (s : State) : Result :=
  modifyMemory decrement (.absoluteX addr) (.fixed 7) s

/-- INX Implied, opcode $E8 (R94). -/
def execInx (s : State) : Result :=
  modifyRegister State.setX s.x increment s

/-- DEX Implied, opcode $CA (R95). -/
def execDex (s : State) : Result :=
  modifyRegister State.setX s.x decrement s

/-- INY Implied, opcode $C8 (R96). -/
def execIny (s : State) : Result :=
  modifyRegister State.setY s.y increment s

/-- DEY Implied, opcode $88 (R97). -/
def execDey (s : State) : Result :=
  modifyRegister State.setY s.y decrement s

end Sys2Proof.Machine
end

