-- ==== Sys2Proof/Machine/Branch.lean ====
section
/-! DEFINITION. Control transfer of 43_branch_jump.md: the eight branches, JMP, JSR, RTS. -/

namespace Sys2Proof.Machine

/-- BCC Relative, opcode $90 (R111). -/
def execBcc (off : Byte) (s : State) : Result :=
  branchIf (!s.flags.c) off s

/-- BCS Relative, opcode $B0 (R112). -/
def execBcs (off : Byte) (s : State) : Result :=
  branchIf s.flags.c off s

/-- BEQ Relative, opcode $F0 (R113). -/
def execBeq (off : Byte) (s : State) : Result :=
  branchIf s.flags.z off s

/-- BMI Relative, opcode $30 (R114). -/
def execBmi (off : Byte) (s : State) : Result :=
  branchIf s.flags.n off s

/-- BNE Relative, opcode $D0 (R115). -/
def execBne (off : Byte) (s : State) : Result :=
  branchIf (!s.flags.z) off s

/-- BPL Relative, opcode $10 (R116). -/
def execBpl (off : Byte) (s : State) : Result :=
  branchIf (!s.flags.n) off s

/-- BVC Relative, opcode $50 (R117). -/
def execBvc (off : Byte) (s : State) : Result :=
  branchIf (!s.flags.v) off s

/-- BVS Relative, opcode $70 (R118). -/
def execBvs (off : Byte) (s : State) : Result :=
  branchIf s.flags.v off s

/-- JMP Absolute, opcode $4C (R119). -/
def execJmpAbs (addr : Addr) (s : State) : Result :=
  .next (s.endAt addr 3)

/-- JMP Indirect, opcode $6C (R120). -/
def execJmpInd (ptr : Addr) (s : State) : Result :=
  outcome do
    let target ← s.effectiveAddress (.indirect ptr)
    pure (s.endAt target 5)

/-- JSR Absolute, opcode $20 (R121). -/
def execJsr (addr : Addr) (s : State) : Result :=
  outcome do
    let t ← s.pushWord (s.pc + 2)
    pure (t.endAt addr 6)

/-- RTS Implied, opcode $60 (R122). -/
def execRts (s : State) : Result :=
  outcome do
    let (w, t) ← s.pullWord
    pure (t.endAt (w + 1) 6)

end Sys2Proof.Machine
end

