-- ==== Sys2Proof/Machine/CompareBit.lean ====
section
/-! DEFINITION. Compares and bit test of 45_compare_bit.md: CMP, CPX, CPY, BIT, and the further forms of CMP of 47_supplement.md R164. -/

namespace Sys2Proof.Machine

/-- BIT with an operand (R153): flags only. -/
def bitTest (o : Operand) (c : Cycles) (s : State) : Result :=
  outcome do
    let m ← s.operandByte o
    pure ((s.setFlags (s.flags.bitTest s.a m)).advance (operandLength o) (s.cycleCount o c))

/-- CMP Immediate, opcode $C9 (R150). -/
def execCmpImm (v : Byte) (s : State) : Result :=
  compareWith s.a (.immediate v) (.fixed 2) s

/-- CMP Zero Page, opcode $C5 (R150). -/
def execCmpZp (b : Byte) (s : State) : Result :=
  compareWith s.a (.memory (.zeroPage b)) (.fixed 3) s

/-- CMP Zero Page,X, opcode $D5 (R150, R164). -/
def execCmpZpX (b : Byte) (s : State) : Result :=
  compareWith s.a (.memory (.zeroPageX b)) (.fixed 4) s

/-- CMP Absolute, opcode $CD (R150). -/
def execCmpAbs (addr : Addr) (s : State) : Result :=
  compareWith s.a (.memory (.absolute addr)) (.fixed 4) s

/-- CMP Absolute,X, opcode $DD (R150, R164). -/
def execCmpAbsX (addr : Addr) (s : State) : Result :=
  compareWith s.a (.memory (.absoluteX addr)) (.range 4) s

/-- CMP Absolute,Y, opcode $D9 (R150, R164). -/
def execCmpAbsY (addr : Addr) (s : State) : Result :=
  compareWith s.a (.memory (.absoluteY addr)) (.range 4) s

/-- CMP (Indirect,X), opcode $C1 (R150, R164). -/
def execCmpIndX (b : Byte) (s : State) : Result :=
  compareWith s.a (.memory (.indirectX b)) (.fixed 6) s

/-- CMP (Indirect),Y, opcode $D1 (R150, R164). -/
def execCmpIndY (b : Byte) (s : State) : Result :=
  compareWith s.a (.memory (.indirectY b)) (.range 5) s

/-- CPX Immediate, opcode $E0 (R151). -/
def execCpxImm (v : Byte) (s : State) : Result :=
  compareWith s.x (.immediate v) (.fixed 2) s

/-- CPX Zero Page, opcode $E4 (R151). -/
def execCpxZp (b : Byte) (s : State) : Result :=
  compareWith s.x (.memory (.zeroPage b)) (.fixed 3) s

/-- CPX Absolute, opcode $EC (R151). -/
def execCpxAbs (addr : Addr) (s : State) : Result :=
  compareWith s.x (.memory (.absolute addr)) (.fixed 4) s

/-- CPY Immediate, opcode $C0 (R152). -/
def execCpyImm (v : Byte) (s : State) : Result :=
  compareWith s.y (.immediate v) (.fixed 2) s

/-- CPY Zero Page, opcode $C4 (R152). -/
def execCpyZp (b : Byte) (s : State) : Result :=
  compareWith s.y (.memory (.zeroPage b)) (.fixed 3) s

/-- CPY Absolute, opcode $CC (R152). -/
def execCpyAbs (addr : Addr) (s : State) : Result :=
  compareWith s.y (.memory (.absolute addr)) (.fixed 4) s

/-- BIT Zero Page, opcode $24 (R153). -/
def execBitZp (b : Byte) (s : State) : Result :=
  bitTest (.memory (.zeroPage b)) (.fixed 3) s

/-- BIT Absolute, opcode $2C (R153). -/
def execBitAbs (addr : Addr) (s : State) : Result :=
  bitTest (.memory (.absolute addr)) (.fixed 4) s

end Sys2Proof.Machine
end

