-- ==== Sys2Proof/Machine/LoadStore.lean ====
section
/-! DEFINITION. The loads and stores of 40_load_store.md: LDA, STA, LDX, LDY, STX, STY, and their further forms of
47_supplement.md R164. -/

namespace Sys2Proof.Machine

/-- LDA Immediate, opcode $A9 (R80). -/
def execLdaImm (v : Byte) (s : State) : Result :=
  loadInto State.setA (.immediate v) (.fixed 2) s

/-- LDA Zero Page, opcode $A5 (R80). -/
def execLdaZp (b : Byte) (s : State) : Result :=
  loadInto State.setA (.memory (.zeroPage b)) (.fixed 3) s

/-- LDA Zero Page,X, opcode $B5 (R80). -/
def execLdaZpX (b : Byte) (s : State) : Result :=
  loadInto State.setA (.memory (.zeroPageX b)) (.fixed 4) s

/-- LDA Absolute, opcode $AD (R80). -/
def execLdaAbs (addr : Addr) (s : State) : Result :=
  loadInto State.setA (.memory (.absolute addr)) (.fixed 4) s

/-- LDA Absolute,X, opcode $BD (R80). -/
def execLdaAbsX (addr : Addr) (s : State) : Result :=
  loadInto State.setA (.memory (.absoluteX addr)) (.range 4) s

/-- LDA Absolute,Y, opcode $B9 (R80). -/
def execLdaAbsY (addr : Addr) (s : State) : Result :=
  loadInto State.setA (.memory (.absoluteY addr)) (.range 4) s

/-- LDA (Indirect,X), opcode $A1 (R80). -/
def execLdaIndX (b : Byte) (s : State) : Result :=
  loadInto State.setA (.memory (.indirectX b)) (.fixed 6) s

/-- LDA (Indirect),Y, opcode $B1 (R80). -/
def execLdaIndY (b : Byte) (s : State) : Result :=
  loadInto State.setA (.memory (.indirectY b)) (.range 5) s

/-- STA Zero Page, opcode $85 (R81). -/
def execStaZp (b : Byte) (s : State) : Result :=
  storeAt s.a (.zeroPage b) (.fixed 3) s

/-- STA Zero Page,X, opcode $95 (R81, R164). -/
def execStaZpX (b : Byte) (s : State) : Result :=
  storeAt s.a (.zeroPageX b) (.fixed 4) s

/-- STA Absolute, opcode $8D (R81). -/
def execStaAbs (addr : Addr) (s : State) : Result :=
  storeAt s.a (.absolute addr) (.fixed 4) s

/-- STA Absolute,X, opcode $9D (R81). -/
def execStaAbsX (addr : Addr) (s : State) : Result :=
  storeAt s.a (.absoluteX addr) (.fixed 5) s

/-- STA Absolute,Y, opcode $99 (R81, R164). -/
def execStaAbsY (addr : Addr) (s : State) : Result :=
  storeAt s.a (.absoluteY addr) (.fixed 5) s

/-- STA (Indirect,X), opcode $81 (R81). -/
def execStaIndX (b : Byte) (s : State) : Result :=
  storeAt s.a (.indirectX b) (.fixed 6) s

/-- STA (Indirect),Y, opcode $91 (R81). -/
def execStaIndY (b : Byte) (s : State) : Result :=
  storeAt s.a (.indirectY b) (.fixed 6) s

/-- LDX Immediate, opcode $A2 (R82). -/
def execLdxImm (v : Byte) (s : State) : Result :=
  loadInto State.setX (.immediate v) (.fixed 2) s

/-- LDX Zero Page, opcode $A6 (R82). -/
def execLdxZp (b : Byte) (s : State) : Result :=
  loadInto State.setX (.memory (.zeroPage b)) (.fixed 3) s

/-- LDX Zero Page,Y, opcode $B6 (R82, R164). -/
def execLdxZpY (b : Byte) (s : State) : Result :=
  loadInto State.setX (.memory (.zeroPageY b)) (.fixed 4) s

/-- LDX Absolute, opcode $AE (R82). -/
def execLdxAbs (addr : Addr) (s : State) : Result :=
  loadInto State.setX (.memory (.absolute addr)) (.fixed 4) s

/-- LDX Absolute,Y, opcode $BE (R82). -/
def execLdxAbsY (addr : Addr) (s : State) : Result :=
  loadInto State.setX (.memory (.absoluteY addr)) (.range 4) s

/-- LDY Immediate, opcode $A0 (R83). -/
def execLdyImm (v : Byte) (s : State) : Result :=
  loadInto State.setY (.immediate v) (.fixed 2) s

/-- LDY Zero Page, opcode $A4 (R83). -/
def execLdyZp (b : Byte) (s : State) : Result :=
  loadInto State.setY (.memory (.zeroPage b)) (.fixed 3) s

/-- LDY Zero Page,X, opcode $B4 (R83, R164). -/
def execLdyZpX (b : Byte) (s : State) : Result :=
  loadInto State.setY (.memory (.zeroPageX b)) (.fixed 4) s

/-- LDY Absolute, opcode $AC (R83). -/
def execLdyAbs (addr : Addr) (s : State) : Result :=
  loadInto State.setY (.memory (.absolute addr)) (.fixed 4) s

/-- LDY Absolute,X, opcode $BC (R83). -/
def execLdyAbsX (addr : Addr) (s : State) : Result :=
  loadInto State.setY (.memory (.absoluteX addr)) (.range 4) s

/-- STX Zero Page, opcode $86 (R84). -/
def execStxZp (b : Byte) (s : State) : Result :=
  storeAt s.x (.zeroPage b) (.fixed 3) s

/-- STX Zero Page,Y, opcode $96 (R84). -/
def execStxZpY (b : Byte) (s : State) : Result :=
  storeAt s.x (.zeroPageY b) (.fixed 4) s

/-- STX Absolute, opcode $8E (R84). -/
def execStxAbs (addr : Addr) (s : State) : Result :=
  storeAt s.x (.absolute addr) (.fixed 4) s

/-- STY Zero Page, opcode $84 (R85). -/
def execStyZp (b : Byte) (s : State) : Result :=
  storeAt s.y (.zeroPage b) (.fixed 3) s

/-- STY Zero Page,X, opcode $94 (R85). -/
def execStyZpX (b : Byte) (s : State) : Result :=
  storeAt s.y (.zeroPageX b) (.fixed 4) s

/-- STY Absolute, opcode $8C (R85). -/
def execStyAbs (addr : Addr) (s : State) : Result :=
  storeAt s.y (.absolute addr) (.fixed 4) s

end Sys2Proof.Machine
end

