-- ==== Sys2Proof/Machine/LogicShift.lean ====
section
/-! DEFINITION. The logic and shifts of 42_logic_shift.md: AND, ORA, EOR, ASL, LSR, ROL, ROR, and their further forms of
47_supplement.md R164. -/

namespace Sys2Proof.Machine

/-- `A & m` with its N and Z (R100). -/
def andOp (a m : Byte) (f : Flags) : Byte × Flags := (a &&& m, f.setNZ (a &&& m))

/-- `A | m` with its N and Z (R101). -/
def orOp (a m : Byte) (f : Flags) : Byte × Flags := (a ||| m, f.setNZ (a ||| m))

/-- `A ^ m` with its N and Z (R102). -/
def xorOp (a m : Byte) (f : Flags) : Byte × Flags := (a ^^^ m, f.setNZ (a ^^^ m))

/-- AND Immediate, opcode $29 (R100). -/
def execAndImm (v : Byte) (s : State) : Result :=
  accumulate andOp (.immediate v) (.fixed 2) s

/-- AND Zero Page, opcode $25 (R100). -/
def execAndZp (b : Byte) (s : State) : Result :=
  accumulate andOp (.memory (.zeroPage b)) (.fixed 3) s

/-- AND Zero Page,X, opcode $35 (R100, R164). -/
def execAndZpX (b : Byte) (s : State) : Result :=
  accumulate andOp (.memory (.zeroPageX b)) (.fixed 4) s

/-- AND Absolute, opcode $2D (R100). -/
def execAndAbs (addr : Addr) (s : State) : Result :=
  accumulate andOp (.memory (.absolute addr)) (.fixed 4) s

/-- AND Absolute,X, opcode $3D (R100, R164). -/
def execAndAbsX (addr : Addr) (s : State) : Result :=
  accumulate andOp (.memory (.absoluteX addr)) (.range 4) s

/-- AND Absolute,Y, opcode $39 (R100, R164). -/
def execAndAbsY (addr : Addr) (s : State) : Result :=
  accumulate andOp (.memory (.absoluteY addr)) (.range 4) s

/-- AND (Indirect,X), opcode $21 (R100, R164). -/
def execAndIndX (b : Byte) (s : State) : Result :=
  accumulate andOp (.memory (.indirectX b)) (.fixed 6) s

/-- AND (Indirect),Y, opcode $31 (R100, R164). -/
def execAndIndY (b : Byte) (s : State) : Result :=
  accumulate andOp (.memory (.indirectY b)) (.range 5) s

/-- ORA Immediate, opcode $09 (R101). -/
def execOraImm (v : Byte) (s : State) : Result :=
  accumulate orOp (.immediate v) (.fixed 2) s

/-- ORA Zero Page, opcode $05 (R101). -/
def execOraZp (b : Byte) (s : State) : Result :=
  accumulate orOp (.memory (.zeroPage b)) (.fixed 3) s

/-- ORA Zero Page,X, opcode $15 (R101, R164). -/
def execOraZpX (b : Byte) (s : State) : Result :=
  accumulate orOp (.memory (.zeroPageX b)) (.fixed 4) s

/-- ORA Absolute, opcode $0D (R101). -/
def execOraAbs (addr : Addr) (s : State) : Result :=
  accumulate orOp (.memory (.absolute addr)) (.fixed 4) s

/-- ORA Absolute,X, opcode $1D (R101, R164). -/
def execOraAbsX (addr : Addr) (s : State) : Result :=
  accumulate orOp (.memory (.absoluteX addr)) (.range 4) s

/-- ORA Absolute,Y, opcode $19 (R101, R164). -/
def execOraAbsY (addr : Addr) (s : State) : Result :=
  accumulate orOp (.memory (.absoluteY addr)) (.range 4) s

/-- ORA (Indirect,X), opcode $01 (R101, R164). -/
def execOraIndX (b : Byte) (s : State) : Result :=
  accumulate orOp (.memory (.indirectX b)) (.fixed 6) s

/-- ORA (Indirect),Y, opcode $11 (R101, R164). -/
def execOraIndY (b : Byte) (s : State) : Result :=
  accumulate orOp (.memory (.indirectY b)) (.range 5) s

/-- EOR Immediate, opcode $49 (R102). -/
def execEorImm (v : Byte) (s : State) : Result :=
  accumulate xorOp (.immediate v) (.fixed 2) s

/-- EOR Zero Page, opcode $45 (R102). -/
def execEorZp (b : Byte) (s : State) : Result :=
  accumulate xorOp (.memory (.zeroPage b)) (.fixed 3) s

/-- EOR Zero Page,X, opcode $55 (R102, R164). -/
def execEorZpX (b : Byte) (s : State) : Result :=
  accumulate xorOp (.memory (.zeroPageX b)) (.fixed 4) s

/-- EOR Absolute, opcode $4D (R102). -/
def execEorAbs (addr : Addr) (s : State) : Result :=
  accumulate xorOp (.memory (.absolute addr)) (.fixed 4) s

/-- EOR Absolute,X, opcode $5D (R102, R164). -/
def execEorAbsX (addr : Addr) (s : State) : Result :=
  accumulate xorOp (.memory (.absoluteX addr)) (.range 4) s

/-- EOR Absolute,Y, opcode $59 (R102, R164). -/
def execEorAbsY (addr : Addr) (s : State) : Result :=
  accumulate xorOp (.memory (.absoluteY addr)) (.range 4) s

/-- EOR (Indirect,X), opcode $41 (R102, R164). -/
def execEorIndX (b : Byte) (s : State) : Result :=
  accumulate xorOp (.memory (.indirectX b)) (.fixed 6) s

/-- EOR (Indirect),Y, opcode $51 (R102, R164). -/
def execEorIndY (b : Byte) (s : State) : Result :=
  accumulate xorOp (.memory (.indirectY b)) (.range 5) s

/-- ASL Accumulator, opcode $0A (R103). -/
def execAslAcc (s : State) : Result :=
  modifyRegister State.setA s.a shiftLeft s

/-- ASL Zero Page, opcode $06 (R103). -/
def execAslZp (b : Byte) (s : State) : Result :=
  modifyMemory shiftLeft (.zeroPage b) (.fixed 5) s

/-- ASL Zero Page,X, opcode $16 (R103, R164). -/
def execAslZpX (b : Byte) (s : State) : Result :=
  modifyMemory shiftLeft (.zeroPageX b) (.fixed 6) s

/-- ASL Absolute, opcode $0E (R103). -/
def execAslAbs (addr : Addr) (s : State) : Result :=
  modifyMemory shiftLeft (.absolute addr) (.fixed 6) s

/-- ASL Absolute,X, opcode $1E (R103, R164). -/
def execAslAbsX (addr : Addr) (s : State) : Result :=
  modifyMemory shiftLeft (.absoluteX addr) (.fixed 7) s

/-- LSR Accumulator, opcode $4A (R104). -/
def execLsrAcc (s : State) : Result :=
  modifyRegister State.setA s.a shiftRight s

/-- LSR Zero Page, opcode $46 (R104). -/
def execLsrZp (b : Byte) (s : State) : Result :=
  modifyMemory shiftRight (.zeroPage b) (.fixed 5) s

/-- LSR Zero Page,X, opcode $56 (R104, R164). -/
def execLsrZpX (b : Byte) (s : State) : Result :=
  modifyMemory shiftRight (.zeroPageX b) (.fixed 6) s

/-- LSR Absolute, opcode $4E (R104). -/
def execLsrAbs (addr : Addr) (s : State) : Result :=
  modifyMemory shiftRight (.absolute addr) (.fixed 6) s

/-- LSR Absolute,X, opcode $5E (R104, R164). -/
def execLsrAbsX (addr : Addr) (s : State) : Result :=
  modifyMemory shiftRight (.absoluteX addr) (.fixed 7) s

/-- ROL Accumulator, opcode $2A (R105). -/
def execRolAcc (s : State) : Result :=
  modifyRegister State.setA s.a rotateLeft s

/-- ROL Zero Page, opcode $26 (R105). -/
def execRolZp (b : Byte) (s : State) : Result :=
  modifyMemory rotateLeft (.zeroPage b) (.fixed 5) s

/-- ROL Zero Page,X, opcode $36 (R105, R164). -/
def execRolZpX (b : Byte) (s : State) : Result :=
  modifyMemory rotateLeft (.zeroPageX b) (.fixed 6) s

/-- ROL Absolute, opcode $2E (R105). -/
def execRolAbs (addr : Addr) (s : State) : Result :=
  modifyMemory rotateLeft (.absolute addr) (.fixed 6) s

/-- ROL Absolute,X, opcode $3E (R105, R164). -/
def execRolAbsX (addr : Addr) (s : State) : Result :=
  modifyMemory rotateLeft (.absoluteX addr) (.fixed 7) s

/-- ROR Accumulator, opcode $6A (R106). -/
def execRorAcc (s : State) : Result :=
  modifyRegister State.setA s.a rotateRight s

/-- ROR Zero Page, opcode $66 (R106). -/
def execRorZp (b : Byte) (s : State) : Result :=
  modifyMemory rotateRight (.zeroPage b) (.fixed 5) s

/-- ROR Zero Page,X, opcode $76 (R106, R164). -/
def execRorZpX (b : Byte) (s : State) : Result :=
  modifyMemory rotateRight (.zeroPageX b) (.fixed 6) s

/-- ROR Absolute, opcode $6E (R106). -/
def execRorAbs (addr : Addr) (s : State) : Result :=
  modifyMemory rotateRight (.absolute addr) (.fixed 6) s

/-- ROR Absolute,X, opcode $7E (R106, R164). -/
def execRorAbsX (addr : Addr) (s : State) : Result :=
  modifyMemory rotateRight (.absoluteX addr) (.fixed 7) s

end Sys2Proof.Machine
end

