-- ==== Sys2Proof/Machine/StackFlags.lean ====
section
/-! DEFINITION. The stack, SP transfer and flag instructions of 44_stack_flags.md: PHA, PHP, PLA, PLP, TSX, TXS, CLC, SEC, CLI, SEI,
CLV, CLD, SED. CLI, SEI and PLP leave `Ipoll` at the I of before them (60_exceptions.md R190). -/

namespace Sys2Proof.Machine

/-- PHA Implied, opcode $48 (R132). -/
def execPha (s : State) : Result :=
  outcome do
    let t ← s.push s.a
    pure (t.advance 1 3)

/-- PHP Implied, opcode $08 (R133). -/
def execPhp (s : State) : Result :=
  outcome do
    let t ← s.push (s.flags.toByte true)
    pure (t.advance 1 3)

/-- PLA Implied, opcode $68 (R134). -/
def execPla (s : State) : Result :=
  outcome do
    let (v, t) ← s.pull
    pure (((t.setA v).setFlags (s.flags.setNZ v)).advance 1 4)

/-- PLP Implied, opcode $28 (R135). -/
def execPlp (s : State) : Result :=
  outcome do
    let (v, t) ← s.pull
    pure ((t.setFlags (Flags.ofByte v)).advanceLate s.flags.i 1 4)

/-- TSX Implied, opcode $BA (R136). -/
def execTsx (s : State) : Result :=
  transferInto State.setX s.sp s

/-- TXS Implied, opcode $9A (R137). -/
def execTxs (s : State) : Result :=
  .next ((s.setSp s.x).advance 1 2)

/-- CLC Implied, opcode $18 (R140). -/
def execClc (s : State) : Result :=
  writeFlags { s.flags with c := false } s

/-- SEC Implied, opcode $38 (R141). -/
def execSec (s : State) : Result :=
  writeFlags { s.flags with c := true } s

/-- CLI Implied, opcode $58 (R142). -/
def execCli (s : State) : Result :=
  .next ((s.setFlags { s.flags with i := false }).advanceLate s.flags.i 1 2)

/-- SEI Implied, opcode $78 (R143). -/
def execSei (s : State) : Result :=
  .next ((s.setFlags { s.flags with i := true }).advanceLate s.flags.i 1 2)

/-- CLV Implied, opcode $B8 (R144). -/
def execClv (s : State) : Result :=
  writeFlags { s.flags with v := false } s

/-- CLD Implied, opcode $D8 (R145). -/
def execCld (s : State) : Result :=
  writeFlags { s.flags with d := false } s

/-- SED Implied, opcode $F8 (R146). -/
def execSed (s : State) : Result :=
  writeFlags { s.flags with d := true } s

end Sys2Proof.Machine
end

