-- ==== Sys2Proof/Machine/Supplement.lean ====
section
/-! DEFINITION. The register transfers of 47_supplement.md: TAX, TAY, TXA, TYA (R160 to R163). -/

namespace Sys2Proof.Machine

/-- TAX Implied, opcode $AA (R160, R164). -/
def execTax (s : State) : Result :=
  transferInto State.setX s.a s

/-- TAY Implied, opcode $A8 (R161, R164). -/
def execTay (s : State) : Result :=
  transferInto State.setY s.a s

/-- TXA Implied, opcode $8A (R162, R164). -/
def execTxa (s : State) : Result :=
  transferInto State.setA s.x s

/-- TYA Implied, opcode $98 (R163, R164). -/
def execTya (s : State) : Result :=
  transferInto State.setA s.y s

end Sys2Proof.Machine
end

