-- ==== Sys2Proof/Machine/System.lean ====
section
/-! DEFINITION. The system instructions of 46_system.md: NOP, BRK, RTI. -/

namespace Sys2Proof.Machine

/-- NOP Implied, opcode $EA (R155). -/
def execNop (s : State) : Result :=
  .next (s.advance 1 2)

/-- BRK Implied, opcode $00 (R156). -/
def execBrk (s : State) : Result :=
  outcome (s.takeException (s.pc + 2) true irqVector)

/-- RTI Implied, opcode $40 (R157). -/
def execRti (s : State) : Result :=
  outcome s.returnFromException

end Sys2Proof.Machine
end

