-- ==== Sys2Proof/Machine/Step.lean ====
section
/-! DEFINITION. One step of the machine (30_encoding.md R52), and the placing of an instruction where the next step fetches. -/

namespace Sys2Proof.Machine

/-- A result of the fetch, run: the instruction's meaning, or why there is none. -/
def runFetched (s : State) : Access Instr → Host.Outcome State Fault Refusal
  | .ok i => exec i s
  | .error r => .refused r

/-- One step (30_encoding.md R52): the boundary's inputs are applied, the event it takes is taken (60_exceptions.md R184), or the
instruction at PC is fetched and executed. -/
def step (s : State) : Host.Outcome State Fault Refusal :=
  match s.sampled.event s.boundary with
  | some e => outcome (s.sampled.takeEvent e)
  | none => runFetched s.sampled s.sampled.fetch

/-- The state with the instruction of the bits `w` stored where `step` fetches its next instruction (log entry 24). -/
def State.withFetchWord (s : State) (nbits w : Nat) : State := s.placeTableWord nbits w

end Sys2Proof.Machine
end

