-- ==== Sys2Proof/Safety.lean ====
section
/-! DEFINITION. The terms the statements use: the invariant of the machine, and the spec's own tables of what an instruction may
change (10_state.md R11 to R14, R25), where it stores, how many cycles it takes (70_reset_and_hazards.md R214), and which
opcode bytes have no meaning (30_encoding.md R69). The machine's meanings use none of them. -/

namespace Sys2Proof.Machine

/-- The invariant every step keeps: memory has its canonical form and the map is a map. -/
def State.Inv (s : State) : Prop := s.mem.wf = true ∧ s.cfg.wellFormed = true

/-- Every address is `ram` or `rom`: the condition under which no access stops (20_memory.md R36, 60_exceptions.md R181). -/
def State.AllAccessible (s : State) : Prop := ∀ addr, s.accessible addr = true

/-- ADC and SBC are binary in this state: D is 0 or DECIMAL_ARITH is `ignored` (41_arithmetic.md R90, R91). -/
def State.BinaryArith (s : State) : Prop := s.flags.d = true → s.cfg.decimal = .ignored

/-- The stack page is plain RAM: every stack address is `ram`, and two different ones reach different cells. -/
def State.PlainStack (s : State) : Prop :=
  (∀ p : Byte, s.classOf (stackAddr p) = .ram) ∧
    ∀ p q : Byte, p ≠ q → s.cellOf (stackAddr p) ≠ s.cellOf (stackAddr q)

/-- The six stored flags, by name (10_state.md R16). -/
inductive FlagName where
  | n | v | d | i | z | c
  deriving DecidableEq, Repr

/-- The value of a flag. -/
def Flags.get (f : Flags) : FlagName → Bool
  | .n => f.n
  | .v => f.v
  | .d => f.d
  | .i => f.i
  | .z => f.z
  | .c => f.c

/-- The Flags Affected column by mnemonic (10_state.md R25). -/
def flagsAffected : Mnemonic → List FlagName
  | .lda | .ldx | .ldy | .inc | .dec | .inx | .dex | .iny | .dey | .and | .ora | .eor | .pla | .tsx => [.n, .z]
  | .tax | .tay | .txa | .tya => [.n, .z]
  | .adc | .sbc => [.n, .v, .z, .c]
  | .asl | .lsr | .rol | .ror | .cmp | .cpx | .cpy => [.n, .z, .c]
  | .bit => [.n, .v, .z]
  | .clc | .sec => [.c]
  | .cli | .sei => [.i]
  | .clv => [.v]
  | .cld | .sed => [.d]
  | .brk => [.i]
  | .plp | .rti => [.n, .v, .d, .i, .z, .c]
  | .sta | .stx | .sty | .bcc | .bcs | .beq | .bmi | .bne | .bpl | .bvc | .bvs => []
  | .jmp | .jsr | .rts | .pha | .php | .txs | .nop => []

/-- The byte registers, by name (10_state.md R10). -/
inductive RegName where
  | a | x | y | sp
  deriving DecidableEq, Repr

/-- The value of a byte register. -/
def State.reg (s : State) : RegName → Byte
  | .a => s.a
  | .x => s.x
  | .y => s.y
  | .sp => s.sp

/-- The byte registers an instruction writes (10_state.md R11 to R14). A shift writes A in Accumulator mode only. -/
def registersWritten (i : Instr) : List RegName :=
  match i.mnemonic with
  | .lda | .adc | .sbc | .and | .ora | .eor | .txa | .tya => [.a]
  | .pla => [.a, .sp]
  | .asl | .lsr | .rol | .ror => if i.operand = some .accumulator then [.a] else []
  | .ldx | .inx | .dex | .tsx | .tax => [.x]
  | .ldy | .iny | .dey | .tay => [.y]
  | .txs | .pha | .php | .plp | .jsr | .rts | .brk | .rti => [.sp]
  | .sta | .stx | .sty | .inc | .dec | .cmp | .cpx | .cpy | .bit | .nop | .jmp => []
  | .bcc | .bcs | .beq | .bmi | .bne | .bpl | .bvc | .bvs => []
  | .clc | .sec | .cli | .sei | .clv | .cld | .sed => []

/-- The instruction is a transfer from `src` to `dst` (47_supplement.md R160 to R163): whenever it answers a next state, `dst` holds
there what `src` held before. -/
def IsTransfer (i : Instr) (src dst : RegName) : Prop :=
  ∀ s t : State, exec i s = .next t → t.reg dst = s.reg src

/-- The address a storing operand forms; an operand that is not in memory is stored to no address. -/
def State.operandTarget (s : State) : Option Operand → Access (List Addr)
  | some (.memory m) => do
    let ea ← s.effectiveAddress m
    pure [ea]
  | some .accumulator => .ok []
  | some (.immediate _) => .ok []
  | none => .ok []

/-- The addresses an instruction stores to, computed as its meaning computes them: the effective address of a store or a
read-modify-write, the stack addresses of a push. -/
def State.storeTargets (s : State) (i : Instr) : Access (List Addr) :=
  match i.mnemonic with
  | .sta | .stx | .sty | .inc | .dec | .asl | .lsr | .rol | .ror => s.operandTarget i.operand
  | .pha | .php => .ok [stackAddr s.sp]
  | .jsr => .ok [stackAddr s.sp, stackAddr (s.sp - 1)]
  | .brk => .ok [stackAddr s.sp, stackAddr (s.sp - 1), stackAddr (s.sp - 2)]
  | .lda | .ldx | .ldy | .adc | .sbc | .inx | .dex | .iny | .dey | .and | .ora | .eor => .ok []
  | .bcc | .bcs | .beq | .bmi | .bne | .bpl | .bvc | .bvs | .jmp | .rts | .pla | .plp | .tsx | .txs => .ok []
  | .clc | .sec | .cli | .sei | .clv | .cld | .sed | .cmp | .cpx | .cpy | .bit | .nop | .rti => .ok []
  | .tax | .tay | .txa | .tya => .ok []

/-- The Load/ALU/compare/BIT column of the cycle table (R214, and R164 for the supplement's rows). -/
def readCycles : Operand → Option Cycles
  | .immediate _ => some (.fixed 2)
  | .memory (.zeroPage _) => some (.fixed 3)
  | .memory (.zeroPageX _) => some (.fixed 4)
  | .memory (.zeroPageY _) => some (.fixed 4)
  | .memory (.absolute _) => some (.fixed 4)
  | .memory (.absoluteX _) => some (.range 4)
  | .memory (.absoluteY _) => some (.range 4)
  | .memory (.indirectX _) => some (.fixed 6)
  | .memory (.indirectY _) => some (.range 5)
  | .memory (.indirect _) => none
  | .memory (.relative _) => none
  | .accumulator => none

/-- The Store column (R214, R164). -/
def storeCycles : Operand → Option Cycles
  | .memory (.zeroPage _) => some (.fixed 3)
  | .memory (.zeroPageX _) => some (.fixed 4)
  | .memory (.zeroPageY _) => some (.fixed 4)
  | .memory (.absolute _) => some (.fixed 4)
  | .memory (.absoluteX _) => some (.fixed 5)
  | .memory (.absoluteY _) => some (.fixed 5)
  | .memory (.indirectX _) => some (.fixed 6)
  | .memory (.indirectY _) => some (.fixed 6)
  | .memory (.indirect _) => none
  | .memory (.relative _) => none
  | .immediate _ => none
  | .accumulator => none

/-- The Read-modify-write column (R214, R164). -/
def modifyCycles : Operand → Option Cycles
  | .accumulator => some (.fixed 2)
  | .memory (.zeroPage _) => some (.fixed 5)
  | .memory (.zeroPageX _) => some (.fixed 6)
  | .memory (.absolute _) => some (.fixed 6)
  | .memory (.absoluteX _) => some (.fixed 7)
  | .memory (.zeroPageY _) => none
  | .memory (.absoluteY _) => none
  | .memory (.indirectX _) => none
  | .memory (.indirectY _) => none
  | .memory (.indirect _) => none
  | .memory (.relative _) => none
  | .immediate _ => none

/-- The cycle entry of an instruction that is not a branch (R214); `none` for a branch, whose count R216 gives. -/
def cycleEntry (i : Instr) : Option Cycles :=
  match i.mnemonic with
  | .lda | .ldx | .ldy | .adc | .sbc | .and | .ora | .eor | .cmp | .cpx | .cpy | .bit => i.operand.bind readCycles
  | .sta | .stx | .sty => i.operand.bind storeCycles
  | .inc | .dec | .asl | .lsr | .rol | .ror => i.operand.bind modifyCycles
  | .bcc | .bcs | .beq | .bmi | .bne | .bpl | .bvc | .bvs => none
  | .jmp =>
    match i.operand with
    | some (.memory (.absolute _)) => some (.fixed 3)
    | some (.memory (.indirect _)) => some (.fixed 5)
    | _ => none
  | .jsr | .rts | .rti => some (.fixed 6)
  | .brk => some (.fixed 7)
  | .pha | .php => some (.fixed 3)
  | .pla | .plp => some (.fixed 4)
  | .inx | .dex | .iny | .dey | .tsx | .txs | .clc | .sec | .cli | .sei | .clv | .cld | .sed | .nop => some (.fixed 2)
  | .tax | .tay | .txa | .tya => some (.fixed 2)

/-- The eight branches with the flag each tests and the value it branches on (43_branch_jump.md R111 to R118). -/
def branchTest : Mnemonic → Option (FlagName × Bool)
  | .bcc => some (.c, false)
  | .bcs => some (.c, true)
  | .beq => some (.z, true)
  | .bmi => some (.n, true)
  | .bne => some (.z, false)
  | .bpl => some (.n, false)
  | .bvc => some (.v, false)
  | .bvs => some (.v, true)
  | _ => none

/-- The register a store instruction stores (40_load_store.md R81, R84, R85). -/
def State.storedRegister (s : State) : Mnemonic → Option Byte
  | .sta => some s.a
  | .stx => some s.x
  | .sty => some s.y
  | _ => none

/-- What `MemWrite(addr, 1, v)` makes of memory, as 20_memory.md R36 says it: the byte is there if the address is `ram`, nothing
changed if it is `rom`, and every address that reaches another cell reads as before. -/
def State.ByteStored (s t : State) (addr : Addr) (v : Byte) : Prop :=
  (s.classOf addr = .ram → t.peek addr = v) ∧ (s.classOf addr = .rom → t.mem = s.mem) ∧
    ∀ b, s.cellOf b ≠ s.cellOf addr → t.peek b = s.peek b

/-- The result of a shift or rotate and the bit it moves into C, in the integers of 42_logic_shift.md R103 to R106. -/
def shiftResult (v : Byte) (c : Bool) : Mnemonic → Option (Byte × Bool)
  | .asl => some (BitVec.ofNat 8 (2 * v.toNat), v.getLsbD 7)
  | .lsr => some (BitVec.ofNat 8 (v.toNat / 2), v.getLsbD 0)
  | .rol => some (BitVec.ofNat 8 (2 * v.toNat + c.toNat), v.getLsbD 7)
  | .ror => some (BitVec.ofNat 8 (v.toNat / 2 + 128 * c.toNat), v.getLsbD 0)
  | _ => none

/-- The value INC and DEC write back (41_arithmetic.md R92, R93). -/
def countResult (v : Byte) : Mnemonic → Option Byte
  | .inc => some (BitVec.ofInt 8 (v.toNat + 1))
  | .dec => some (BitVec.ofInt 8 (v.toNat - 1))
  | _ => none

/-- The register a compare reads (45_compare_bit.md R150, R151, R152). -/
def State.comparedRegister (s : State) : Mnemonic → Option Byte
  | .cmp => some s.a
  | .cpx => some s.x
  | .cpy => some s.y
  | _ => none

/-- The branch's condition in a state (43_branch_jump.md R110): the flag it tests has the value it branches on. -/
def State.branchTaken (s : State) (test : FlagName × Bool) : Bool := s.flags.get test.1 == test.2

/-- The 105 opcode bytes without a documented instruction, as 30_encoding.md R69 lists them. -/
def undocumentedOpcodes : List Byte :=
  [0x02, 0x03, 0x04, 0x07, 0x0B, 0x0C, 0x0F, 0x12, 0x13, 0x14, 0x17, 0x1A, 0x1B, 0x1C, 0x1F, 0x22, 0x23, 0x27, 0x2B, 0x2F, 0x32,
   0x33, 0x34, 0x37, 0x3A, 0x3B, 0x3C, 0x3F, 0x42, 0x43, 0x44, 0x47, 0x4B, 0x4F, 0x52, 0x53, 0x54, 0x57, 0x5A, 0x5B, 0x5C, 0x5F,
   0x62, 0x63, 0x64, 0x67, 0x6B, 0x6F, 0x72, 0x73, 0x74, 0x77, 0x7A, 0x7B, 0x7C, 0x7F, 0x80, 0x82, 0x83, 0x87, 0x89, 0x8B, 0x8F,
   0x92, 0x93, 0x97, 0x9B, 0x9C, 0x9E, 0x9F, 0xA3, 0xA7, 0xAB, 0xAF, 0xB2, 0xB3, 0xB7, 0xBB, 0xBF, 0xC2, 0xC3, 0xC7, 0xCB, 0xCF,
   0xD2, 0xD3, 0xD4, 0xD7, 0xDA, 0xDB, 0xDC, 0xDF, 0xE2, 0xE3, 0xE7, 0xEB, 0xEF, 0xF2, 0xF3, 0xF4, 0xF7, 0xFA, 0xFB, 0xFC, 0xFF]

end Sys2Proof.Machine
end

