-- ==== Sys2Proof/Certificates/Slice0/Obligations.lean ====
section
/-! DEFINITION. The statements about the model, each a proposition without a proof, from the numbered rules of spec/. A docstring
says the statement in words and names the rules it rests on; what is the model's choice is called so, with its log entry. -/

open Sys2Proof Sys2Proof.Machine

/-- Where no event is taken at the boundary, and the bytes from PC on are the bytes of an admitted instruction i and nothing
more, step is exec of i in the state with the boundary's inputs applied. The boundary's inputs change three fields of the
state and no other, at every boundary: the list of inputs loses its head, irq_line takes the boundary's level, and
nmi_pending is set by an edge. (The inputs list is the model's form of the environment, log entry 10.) Rests on
30_encoding.md R50, 30_encoding.md R51, 30_encoding.md R52, 60_exceptions.md R184, 60_exceptions.md R182, 60_exceptions.md
R183, 60_exceptions.md R197. -/
def Obligations.StepRunsDecodedInstruction : Prop :=
  (∀ (s : State) (i : Instr) (bs : List Byte), s.sampled.event s.boundary = none → i.wellFormed s.cfg = true →
      s.readBytes s.pc bs.length = .ok bs → decode bs = .ok (i, []) → step s = exec i s.sampled) ∧
    (∀ s : State, s.sampled = { s with
      inputs := s.inputs.tail, irqLine := s.boundary.irqLine, nmiPending := s.nmiPending || s.boundary.nmiEdge }) ∧
    ∀ s : State, s.inputs = [] → s.sampled = s

/-- When step answers a next state, the list of inputs has lost its head, irq_line has the level the boundary gives, the
parameters are the same, and nmi_pending is cleared exactly by an NMI entry or a reset: otherwise it is set if it was set or
if the boundary makes an edge. (The inputs list is the model's form of the environment, log entry 10.) Rests on
60_exceptions.md R182, 60_exceptions.md R183, 60_exceptions.md R197. -/
def Obligations.StepAppliesBoundaryInputs : Prop :=
  ∀ s t : State, step s = .next t →
    t.inputs = s.inputs.tail ∧ t.irqLine = s.boundary.irqLine ∧ t.cfg = s.cfg ∧
      t.nmiPending =
        match s.sampled.event s.boundary with
        | some (.reset _) => false
        | some .nmi => false
        | some .irq => s.nmiPending || s.boundary.nmiEdge
        | none => s.nmiPending || s.boundary.nmiEdge

/-- At a boundary: an asserted reset is taken whatever else is pending; else a pending NMI (latched before or at this boundary)
is taken unless the boundary puts it off; else an IRQ is taken if its line is active, Ipoll is 0 and the boundary does not
put it off; else the instruction at PC is fetched and run. That the choice of the "may" stands in the boundary input is the
model's (log entry 11). Rests on 60_exceptions.md R180, 60_exceptions.md R184, 60_exceptions.md R188. -/
def Obligations.BoundaryPriority : Prop :=
  ∀ s : State,
    (∀ r, s.boundary.reset = some r → step s = outcome (s.sampled.resetSequence r)) ∧
      (s.boundary.reset = none → (s.nmiPending || s.boundary.nmiEdge) = true → s.boundary.defer = false →
        step s = outcome s.sampled.nmiEntry) ∧
      (s.boundary.reset = none → (s.nmiPending || s.boundary.nmiEdge) = false → s.boundary.irqLine = true →
        s.ipoll = false → s.boundary.defer = false → step s = outcome s.sampled.irqEntry) ∧
      (s.boundary.reset = none →
        (s.boundary.defer = true ∨
          ((s.nmiPending || s.boundary.nmiEdge) = false ∧ (s.boundary.irqLine = false ∨ s.ipoll = true))) →
        step s = runFetched s.sampled s.sampled.fetch)

/-- Sixteen words, at least one of every family and of every addressing mode, written from the opcode tables and the formats,
decode to the instruction the spec names for them: the low address byte comes first. Rests on 30_encoding.md R51,
30_encoding.md R67, 47_supplement.md R164, 95_test_vectors.md Part 1. -/
def Obligations.WrittenWordsDecode : Prop :=
  decode [0xA9, 0x42] = .ok (.ldaImm 0x42, []) ∧ decode [0xB5, 0x42] = .ok (.ldaZpX 0x42, []) ∧
    decode [0x8D, 0x00, 0x02] = .ok (.staAbs 0x0200, []) ∧ decode [0x96, 0x42] = .ok (.stxZpY 0x42, []) ∧
    decode [0xBD, 0x34, 0x12] = .ok (.ldaAbsX 0x1234, []) ∧ decode [0xB9, 0x42, 0x00] = .ok (.ldaAbsY 0x0042, []) ∧
    decode [0xE1, 0x20] = .ok (.sbcIndX 0x20, []) ∧ decode [0xD1, 0x20] = .ok (.cmpIndY 0x20, []) ∧
    decode [0x65, 0x10] = .ok (.adcZp 0x10, []) ∧ decode [0x6A] = .ok (.rorAcc, []) ∧
    decode [0xF0, 0xFE] = .ok (.beq 0xFE, []) ∧ decode [0x6C, 0xFF, 0x02] = .ok (.jmpInd 0x02FF, []) ∧
    decode [0x48] = .ok (.pha, []) ∧ decode [0x24, 0x20] = .ok (.bitZp 0x20, []) ∧
    decode [0x00, 0xEA] = .ok (.brk, [0xEA]) ∧ decode [0xAA] = .ok (.tax, [])

/-- For every instruction, with every operand, decoding its encoding followed by any bytes gives the instruction and leaves
exactly those bytes: no bit of an encoding is dropped and the length is found from the first byte. Rests on 30_encoding.md
R50, 30_encoding.md R51, 30_encoding.md R67, 30_encoding.md R70, 47_supplement.md R164. -/
def Obligations.DecodeOfEncode : Prop :=
  ∀ (i : Instr) (rest : List Byte), decode (encode i ++ rest) = .ok (i, rest)

/-- If bytes decode to an instruction and a rest, they are that instruction's encoding followed by the rest: every instruction
has one encoding, and no other bytes decode to it. Rests on 30_encoding.md R50, 30_encoding.md R51, 30_encoding.md R69. -/
def Obligations.EncodeOfDecode : Prop :=
  ∀ (bs : List Byte) (i : Instr) (rest : List Byte), decode bs = .ok (i, rest) → encode i ++ rest = bs

/-- A byte has no row in the decoder's table exactly when it is one of the 105 bytes R69 lists; where no event is taken and the
readable byte at PC is one of them, the step is refused with that byte; and so it is where ADMIT_SUPPLEMENT is false and the
byte is the opcode of an instruction the source does not list. Rests on 00_scope.md R4, 30_encoding.md R52, 30_encoding.md
R69, 47_supplement.md R164. -/
def Obligations.UndefinedOpcodesRefused : Prop :=
  (∀ op : Byte, lookupOpcode op = none ↔ op ∈ undocumentedOpcodes) ∧
    ∀ (s : State) (op : Byte), s.sampled.event s.boundary = none → s.read s.pc = .ok op →
      (op ∈ undocumentedOpcodes → step s = .refused (.undefinedOpcode op)) ∧
        ∀ i : Instr, s.cfg.admitSupplement = false → i.inSource = false → (encode i).head? = some op →
          step s = .refused (.undefinedOpcode op)

/-- In the state after reset the four pieces of state R27 fixes have their values: I is 1, Ipoll is 1, nmi_pending is 0, and PC
is what Read16($FFFC) gives in that state. (That this is $0000, and the values of the other registers and of memory, are the
model's choices, log entries 1, 2 and 3; nothing is stated about them.) Rests on 10_state.md R27, 70_reset_and_hazards.md
R210, 20_memory.md R33. -/
def Obligations.StateAfterReset : Prop :=
  State.reset.flags.i = true ∧ State.reset.ipoll = true ∧ State.reset.nmiPending = false ∧
    State.reset.readVector 0xFFFC = .ok State.reset.pc

/-- The memory of the reset state has its canonical form and the map of its parameters is a map. (The map, all RAM, is the
model's choice, log entry 4.) Rests on 10_state.md R27, 20_memory.md R30, 20_memory.md R36. -/
def Obligations.ResetMeetsInvariant : Prop :=
  State.reset.Inv

/-- From every state in which memory has its canonical form and the map is a map, a step that answers a next state gives such a
state again: stores, pushes, interrupt entries and resets included. Rests on 20_memory.md R30, 20_memory.md R36,
60_exceptions.md R184, 30_encoding.md R52. -/
def Obligations.StepKeepsInvariant : Prop :=
  ∀ s t : State, s.Inv → step s = .next t → t.Inv

/-- In a state that meets the invariant, an address the map calls rom is rom after every step and reads as the same byte,
whatever the step stores, pushes or enters. (The invariant rules out maps in which a ram region reaches a rom region's
cells, log entry 5.) Rests on 20_memory.md R36, 00_scope.md R4, 20_memory.md R44. -/
def Obligations.RomBytesNeverChange : Prop :=
  ∀ s t : State, s.Inv → step s = .next t → ∀ addr, s.classOf addr = .rom →
    t.classOf addr = .rom ∧ t.peek addr = s.peek addr

/-- N becomes bit 7 of the value and Z says that the value is $00; no other flag changes; $00 gives N=0 Z=1, $80 gives N=1 Z=0;
no value gives both through setNZ, but setP (PLP, RTI) and BIT can give both. States R28. -/
def Obligations.SetNZRule : Prop :=
  (∀ (f : Flags) (v : Byte), f.setNZ v = { f with n := v.getLsbD 7, z := decide (v = 0x00) }) ∧
    (∀ (f : Flags) (v : Byte), ((f.setNZ v).n && (f.setNZ v).z) = false) ∧
    (∀ f : Flags, (f.setNZ 0x00).n = false ∧ (f.setNZ 0x00).z = true ∧
      (f.setNZ 0x80).n = true ∧ (f.setNZ 0x80).z = false) ∧
    (∃ v : Byte, (Flags.ofByte v).n = true ∧ (Flags.ofByte v).z = true) ∧
    ∃ (f : Flags) (a m : Byte), (f.bitTest a m).n = true ∧ (f.bitTest a m).z = true

/-- The pushed byte has N V 1 b D I Z C from bit 7 down; setP reads bits 7 6 3 2 1 0; setP of Pbyte gives the flags back; and
two pulled bytes that differ only in bits 5 and 4 give the same flags. Rests on 10_state.md R16, 10_state.md R19,
10_state.md R20. -/
def Obligations.StatusByteLayout : Prop :=
  (∀ (f : Flags) (b : Bool), (f.toByte b).getLsbD 7 = f.n ∧ (f.toByte b).getLsbD 6 = f.v ∧
      (f.toByte b).getLsbD 5 = true ∧ (f.toByte b).getLsbD 4 = b ∧ (f.toByte b).getLsbD 3 = f.d ∧
      (f.toByte b).getLsbD 2 = f.i ∧ (f.toByte b).getLsbD 1 = f.z ∧ (f.toByte b).getLsbD 0 = f.c ∧
      Flags.ofByte (f.toByte b) = f) ∧
    (∀ v : Byte, Flags.ofByte v =
      { n := v.getLsbD 7, v := v.getLsbD 6, d := v.getLsbD 3, i := v.getLsbD 2, z := v.getLsbD 1, c := v.getLsbD 0 }) ∧
    ∀ v w : Byte, v &&& 0xCF = w &&& 0xCF → Flags.ofByte v = Flags.ofByte w

/-- At a ram address a read gives the byte there and a write stores the byte; at a rom address a read gives the byte and a write
changes nothing; a device address and an unmapped one are refused, each by name with the address. Rests on 20_memory.md R36,
20_memory.md R39. -/
def Obligations.MemoryAccessByClass : Prop :=
  ∀ (s : State) (addr : Addr) (v : Byte),
    (s.classOf addr = .ram → s.read addr = .ok (s.peek addr) ∧
      ∃ t, s.write addr v = .ok t ∧ t = { s with mem := t.mem } ∧ t.read addr = .ok v ∧ s.ByteStored t addr v) ∧
    (s.classOf addr = .rom → s.read addr = .ok (s.peek addr) ∧ s.write addr v = .ok s) ∧
    (s.classOf addr = .device → s.read addr = .error (.deviceAccess addr) ∧
      s.write addr v = .error (.deviceAccess addr)) ∧
    (s.classOf addr = .unmapped → s.read addr = .error (.unmappedAddress addr) ∧
      s.write addr v = .error (.unmappedAddress addr))

/-- Where the stack address $0100 + SP is accessible, push(v) stores v there, at the SP of before, SP falls by one modulo 256,
and nothing else changes. Rests on 44_stack_flags.md R130, 20_memory.md R32, 10_state.md R14. -/
def Obligations.PushStoresThenDecrements : Prop :=
  ∀ (s : State) (v : Byte), s.accessible (0x0100 + s.sp.setWidth 16) = true →
    ∃ t, s.push v = .ok t ∧ t = { s with mem := t.mem, sp := t.sp } ∧ t.sp.toNat = (s.sp.toNat + 255) % 256 ∧
      s.ByteStored t (0x0100 + s.sp.setWidth 16) v

/-- Where $0100 + ((SP + 1) mod 256) is accessible, pull() gives the byte there and SP + 1, and changes nothing else; and on a
ram stack address a push followed by a pull gives the pushed byte and leaves SP as it was. Rests on 44_stack_flags.md R131,
44_stack_flags.md R130, 10_state.md R14. -/
def Obligations.PullAfterPush : Prop :=
  (∀ s : State, s.accessible (0x0100 + (s.sp + 1).setWidth 16) = true →
      s.pull = .ok (s.peek (0x0100 + (s.sp + 1).setWidth 16), { s with sp := s.sp + 1 })) ∧
    ∀ (s t : State) (v : Byte), s.classOf (0x0100 + s.sp.setWidth 16) = .ram → s.push v = .ok t →
      ∃ u, t.pull = .ok (v, u) ∧ u.sp = s.sp ∧ u.mem = t.mem

/-- The operand byte is A, the immediate, or the byte at the accessible effective address. Zero Page is b1; Zero Page,X and ,Y
are the sum modulo 256; Absolute is the operand; Absolute,X and ,Y are the sum modulo 65536; a branch target is PC + 2 + the
signed offset modulo 65536. None of these addresses stops. Rests on 30_encoding.md R54, 30_encoding.md R55, 30_encoding.md
R56, 30_encoding.md R57, 30_encoding.md R58, 30_encoding.md R59, 30_encoding.md R60, 30_encoding.md R61, 30_encoding.md R65,
20_memory.md R43. -/
def Obligations.DirectOperandFormulas : Prop :=
  (∀ (s : State) (b : Byte) (w : Addr),
      (∃ ea, s.effectiveAddress (.zeroPage b) = .ok ea ∧ ea.toNat = b.toNat) ∧
      (∃ ea, s.effectiveAddress (.zeroPageX b) = .ok ea ∧ ea.toNat = (b.toNat + s.x.toNat) % 256) ∧
      (∃ ea, s.effectiveAddress (.zeroPageY b) = .ok ea ∧ ea.toNat = (b.toNat + s.y.toNat) % 256) ∧
      s.effectiveAddress (.absolute w) = .ok w ∧
      (∃ ea, s.effectiveAddress (.absoluteX w) = .ok ea ∧ ea.toNat = (w.toNat + s.x.toNat) % 65536) ∧
      (∃ ea, s.effectiveAddress (.absoluteY w) = .ok ea ∧ ea.toNat = (w.toNat + s.y.toNat) % 65536) ∧
      (∃ ea, s.effectiveAddress (.relative b) = .ok ea ∧ (ea.toNat : Int) = (s.pc.toNat + 2 + b.toInt) % 65536) ∧
      s.operandByte .accumulator = .ok s.a ∧ s.operandByte (.immediate b) = .ok b) ∧
    ∀ (s : State) (m : AddrMode) (ea : Addr), s.effectiveAddress m = .ok ea → s.accessible ea = true →
      s.operandByte (.memory m) = .ok (s.peek ea)

/-- Indirect reads its high byte at the pointer with only the low address byte incremented; (Indirect,X) and (Indirect),Y read
both pointer bytes in the zero page, wrapping there; (Indirect),Y adds Y modulo 65536. Where the pointer bytes are
accessible, the mode gives low + 256 * high. Rests on 30_encoding.md R62, 30_encoding.md R63, 30_encoding.md R64,
20_memory.md R31, 20_memory.md R34, 20_memory.md R43. -/
def Obligations.PointerAddressFormulas : Prop :=
  ∀ (s : State) (b : Byte) (w p q : Addr),
    (p = w → q.toNat = w.toNat / 256 * 256 + (w.toNat + 1) % 256 → s.accessible p = true → s.accessible q = true →
      ∃ ea, s.effectiveAddress (.indirect w) = .ok ea ∧ ea.toNat = (s.peek p).toNat + 256 * (s.peek q).toNat) ∧
    (p.toNat = (b.toNat + s.x.toNat) % 256 → q.toNat = (b.toNat + s.x.toNat + 1) % 256 → s.accessible p = true →
      s.accessible q = true →
      ∃ ea, s.effectiveAddress (.indirectX b) = .ok ea ∧ ea.toNat = (s.peek p).toNat + 256 * (s.peek q).toNat) ∧
    (p.toNat = b.toNat → q.toNat = (b.toNat + 1) % 256 → s.accessible p = true → s.accessible q = true →
      ∃ ea, s.effectiveAddress (.indirectY b) = .ok ea ∧
        ea.toNat = ((s.peek p).toNat + 256 * (s.peek q).toNat + s.y.toNat) % 65536)

/-- In every state in which every address is ram or rom, and D is 0 or DECIMAL_ARITH is ignored, every one of the 151
instructions, with every operand, answers a next state. Rests on 60_exceptions.md R181, 60_exceptions.md R191,
41_arithmetic.md R90, 41_arithmetic.md R91. -/
def Obligations.EveryInstructionCompletes : Prop :=
  ∀ (s : State) (i : Instr), s.AllAccessible → s.BinaryArith → ∃ t, exec i s = .next t

/-- No instruction faults. If one is refused, the refusal names an address that is a device, or an address that is unmapped, or
it is an ADC or SBC with D=1 under DECIMAL_ARITH = refuse; and every form of ADC and SBC whose operand byte can be read is
refused there with its mnemonic. Rests on 20_memory.md R36, 41_arithmetic.md R90, 41_arithmetic.md R91, 60_exceptions.md
R181, 00_scope.md R4. -/
def Obligations.StopsAreJustified : Prop :=
  (∀ (i : Instr) (s : State),
      (∀ f, exec i s ≠ .fault f) ∧
        ∀ r, exec i s = .refused r →
          (∃ addr, r = .deviceAccess addr ∧ s.classOf addr = .device) ∨
            (∃ addr, r = .unmappedAddress addr ∧ s.classOf addr = .unmapped) ∨
            (r = .decimalArithmetic i.mnemonic ∧ (i.mnemonic = .adc ∨ i.mnemonic = .sbc) ∧ s.flags.d = true ∧
              s.cfg.decimal = .refuse)) ∧
    ∀ (s : State) (i : Instr) (o : Operand) (m : Byte), (i.mnemonic = .adc ∨ i.mnemonic = .sbc) → i.operand = some o →
      s.operandByte o = .ok m → s.flags.d = true → s.cfg.decimal = .refuse →
        exec i s = .refused (.decimalArithmetic i.mnemonic)

/-- For every form of LDA, LDX and LDY whose operand byte can be read, the instruction completes: the register takes the byte, N
and Z are those of the byte, PC moves past the instruction, Ipoll takes I, and nothing else but the observer's cycle count
changes. Rests on 40_load_store.md R80, 40_load_store.md R82, 40_load_store.md R83, 47_supplement.md R164, 10_state.md R28. -/
def Obligations.LoadResult : Prop :=
  ∀ (s : State) (i : Instr) (o : Operand) (v : Byte), i.operand = some o → s.operandByte o = .ok v →
    (i.mnemonic = .lda → ∃ k, exec i s = .next { s with
      a := v, flags := s.flags.setNZ v
      pc := s.pc + BitVec.ofNat 16 (operandLength o), ipoll := s.flags.i, cycles := k }) ∧
    (i.mnemonic = .ldx → ∃ k, exec i s = .next { s with
      x := v, flags := s.flags.setNZ v
      pc := s.pc + BitVec.ofNat 16 (operandLength o), ipoll := s.flags.i, cycles := k }) ∧
    (i.mnemonic = .ldy → ∃ k, exec i s = .next { s with
      y := v, flags := s.flags.setNZ v
      pc := s.pc + BitVec.ofNat 16 (operandLength o), ipoll := s.flags.i, cycles := k })

/-- For every form of STA, STX and STY whose effective address is accessible, the instruction completes: the register is stored
there if it is ram, nothing is stored if it is rom, every address that reaches another cell reads as before, PC moves past
the instruction, Ipoll takes I, and no register or flag changes. Rests on 40_load_store.md R81, 40_load_store.md R84,
40_load_store.md R85, 47_supplement.md R164, 20_memory.md R36. -/
def Obligations.StoreResult : Prop :=
  ∀ (s : State) (i : Instr) (m : AddrMode) (ea : Addr) (v : Byte), i.operand = some (.memory m) →
    s.storedRegister i.mnemonic = some v → s.effectiveAddress m = .ok ea → s.accessible ea = true →
      ∃ t, exec i s = .next t ∧ s.ByteStored t ea v ∧
        t = { s with mem := t.mem, pc := s.pc + BitVec.ofNat 16 (modeLength m), ipoll := s.flags.i, cycles := t.cycles }

/-- For every form of ADC whose operand byte m can be read, with D=0 or DECIMAL_ARITH = ignored: A becomes A + m + C modulo 256,
C says that the exact unsigned sum is over 255, V that the exact signed sum lies outside -128..127, N and Z are those of the
8-bit result, D and I stay, and nothing else changes but PC, Ipoll and the cycle count. Rests on 41_arithmetic.md R90,
41_arithmetic.md R98, 47_supplement.md R164. -/
def Obligations.AdcResult : Prop :=
  ∀ (s : State) (i : Instr) (o : Operand) (m r : Byte) (u : Nat) (x : Int), i.mnemonic = .adc → i.operand = some o →
    s.operandByte o = .ok m → s.BinaryArith → u = s.a.toNat + m.toNat + s.flags.c.toNat →
    x = s.a.toInt + m.toInt + s.flags.c.toNat → r.toNat = u % 256 →
      ∃ k, exec i s = .next { s with
        a := r
        flags := { s.flags with
          n := r.getLsbD 7, v := decide (x < -128 ∨ 127 < x), z := decide (r = 0x00), c := decide (255 < u) }
        pc := s.pc + BitVec.ofNat 16 (operandLength o), ipoll := s.flags.i, cycles := k }

/-- For every form of SBC whose operand byte m can be read, with D=0 or DECIMAL_ARITH = ignored: A becomes A - m - (1 - C)
modulo 256, C is 1 exactly when that exact unsigned difference is not negative, V says that the exact signed difference lies
outside -128..127, N and Z are those of the 8-bit result, and nothing else changes but PC, Ipoll and the cycle count. Rests
on 41_arithmetic.md R91, 41_arithmetic.md R98, 10_state.md R24, 47_supplement.md R164. -/
def Obligations.SbcResult : Prop :=
  ∀ (s : State) (i : Instr) (o : Operand) (m r : Byte) (u x : Int), i.mnemonic = .sbc → i.operand = some o →
    s.operandByte o = .ok m → s.BinaryArith → u = s.a.toNat - m.toNat - (1 - s.flags.c.toNat) →
    x = s.a.toInt - m.toInt - (1 - s.flags.c.toNat) → (r.toNat : Int) = u % 256 →
      ∃ k, exec i s = .next { s with
        a := r
        flags := { s.flags with
          n := r.getLsbD 7, v := decide (x < -128 ∨ 127 < x), z := decide (r = 0x00), c := decide (0 ≤ u) }
        pc := s.pc + BitVec.ofNat 16 (operandLength o), ipoll := s.flags.i, cycles := k }

/-- For every form of INC and DEC whose effective address is accessible, the instruction completes: the byte one more or one
less modulo 256 is stored there (nothing is stored in rom), N and Z are those of that byte even in rom, and no register and
no other flag changes. Rests on 41_arithmetic.md R92, 41_arithmetic.md R93, 20_memory.md R36, 10_state.md R28. -/
def Obligations.IncDecMemoryResult : Prop :=
  ∀ (s : State) (i : Instr) (m : AddrMode) (ea : Addr) (r : Byte), i.operand = some (.memory m) →
    s.effectiveAddress m = .ok ea → s.accessible ea = true → countResult (s.peek ea) i.mnemonic = some r →
      ∃ t, exec i s = .next t ∧ s.ByteStored t ea r ∧
        t = { s with mem := t.mem, flags := s.flags.setNZ r, pc := s.pc + BitVec.ofNat 16 (modeLength m),
                     ipoll := s.flags.i, cycles := t.cycles }

/-- Each is one byte with its opcode and takes two cycles; X or Y becomes one more or one less modulo 256; N and Z are those of
the new value; PC moves by one, Ipoll takes I; nothing else changes. States R94, R95, R96, R97. -/
def Obligations.IndexRegisterSteps : Prop :=
  encode .inx = [0xE8] ∧ encode .dex = [0xCA] ∧ encode .iny = [0xC8] ∧ encode .dey = [0x88] ∧
    ∀ (s : State) (r : Byte),
      ((r.toNat : Int) = (s.x.toNat + 1) % 256 → exec .inx s = .next { s with
        x := r, flags := s.flags.setNZ r, pc := s.pc + 1, ipoll := s.flags.i, cycles := s.cycles + 2 }) ∧
      ((r.toNat : Int) = (s.x.toNat - 1) % 256 → exec .dex s = .next { s with
        x := r, flags := s.flags.setNZ r, pc := s.pc + 1, ipoll := s.flags.i, cycles := s.cycles + 2 }) ∧
      ((r.toNat : Int) = (s.y.toNat + 1) % 256 → exec .iny s = .next { s with
        y := r, flags := s.flags.setNZ r, pc := s.pc + 1, ipoll := s.flags.i, cycles := s.cycles + 2 }) ∧
      ((r.toNat : Int) = (s.y.toNat - 1) % 256 → exec .dey s = .next { s with
        y := r, flags := s.flags.setNZ r, pc := s.pc + 1, ipoll := s.flags.i, cycles := s.cycles + 2 })

/-- For every form of AND, ORA and EOR whose operand byte m can be read, the instruction completes: A becomes A & m, A | m or A
^ m, N and Z are those of the result, and nothing else changes but PC, Ipoll and the cycle count. Rests on 42_logic_shift.md
R100, 42_logic_shift.md R101, 42_logic_shift.md R102, 47_supplement.md R164. -/
def Obligations.LogicResult : Prop :=
  ∀ (s : State) (i : Instr) (o : Operand) (m : Byte), i.operand = some o → s.operandByte o = .ok m →
    (i.mnemonic = .and → ∃ k, exec i s = .next { s with
      a := s.a &&& m, flags := s.flags.setNZ (s.a &&& m)
      pc := s.pc + BitVec.ofNat 16 (operandLength o), ipoll := s.flags.i, cycles := k }) ∧
    (i.mnemonic = .ora → ∃ k, exec i s = .next { s with
      a := s.a ||| m, flags := s.flags.setNZ (s.a ||| m)
      pc := s.pc + BitVec.ofNat 16 (operandLength o), ipoll := s.flags.i, cycles := k }) ∧
    (i.mnemonic = .eor → ∃ k, exec i s = .next { s with
      a := s.a ^^^ m, flags := s.flags.setNZ (s.a ^^^ m)
      pc := s.pc + BitVec.ofNat 16 (operandLength o), ipoll := s.flags.i, cycles := k })

/-- In Accumulator mode the shift completes in two cycles: A takes the shifted value (the old C entering for the rotates), C the
bit shifted out, N and Z are those of the result, memory and every other register stay. Rests on 42_logic_shift.md R103,
42_logic_shift.md R104, 42_logic_shift.md R105, 42_logic_shift.md R106, 30_encoding.md R54. -/
def Obligations.ShiftAccumulatorResult : Prop :=
  ∀ (s : State) (i : Instr) (r : Byte) (out : Bool), i.operand = some .accumulator →
    shiftResult s.a s.flags.c i.mnemonic = some (r, out) →
      exec i s = .next { s with
        a := r
        flags := { s.flags with n := r.getLsbD 7, z := decide (r = 0x00), c := out }
        pc := s.pc + 1, ipoll := s.flags.i, cycles := s.cycles + 2 }

/-- For every memory form of the shifts whose effective address is accessible, the instruction completes: the shifted byte is
stored at that address (nothing in rom), C takes the bit shifted out, N and Z are those of the result, and no register
changes. Rests on 42_logic_shift.md R103, 42_logic_shift.md R104, 42_logic_shift.md R105, 42_logic_shift.md R106,
47_supplement.md R164, 20_memory.md R36. -/
def Obligations.ShiftMemoryResult : Prop :=
  ∀ (s : State) (i : Instr) (m : AddrMode) (ea : Addr) (r : Byte) (out : Bool), i.operand = some (.memory m) →
    s.effectiveAddress m = .ok ea → s.accessible ea = true →
    shiftResult (s.peek ea) s.flags.c i.mnemonic = some (r, out) →
      ∃ t, exec i s = .next t ∧ s.ByteStored t ea r ∧
        t = { s with
          mem := t.mem
          flags := { s.flags with n := r.getLsbD 7, z := decide (r = 0x00), c := out }
          pc := s.pc + BitVec.ofNat 16 (modeLength m), ipoll := s.flags.i, cycles := t.cycles }

/-- From every state, ROL A then ROR A, and ROR A then ROL A, give back A and C; and nine rotations left of a byte through the
carry restore the byte and the carry. Rests on 42_logic_shift.md R105, 42_logic_shift.md R106. -/
def Obligations.RotatesAreNineBitRotations : Prop :=
  (∀ s t : State, exec .rolAcc s = .next t → ∃ u, exec .rorAcc t = .next u ∧ u.a = s.a ∧ u.flags.c = s.flags.c) ∧
    (∀ s t : State, exec .rorAcc s = .next t → ∃ u, exec .rolAcc t = .next u ∧ u.a = s.a ∧ u.flags.c = s.flags.c) ∧
    ∀ (v : Byte) (f : Flags), ((fun p : Byte × Flags => rotateLeft p.1 p.2)^[9] (v, f)).1 = v ∧
      ((fun p : Byte × Flags => rotateLeft p.1 p.2)^[9] (v, f)).2.c = f.c

/-- For each of the eight branches, in every state: if the flag it tests has its value, PC becomes PC + 2 + the signed offset
modulo 65536, in 3 cycles or 4 to another page than that of PC + 2; else PC becomes PC + 2 in 2 cycles. Ipoll takes I and
nothing else changes. Rests on 43_branch_jump.md R110, R111, R112, R113, R114, R115, R116, R117, 43_branch_jump.md R118,
30_encoding.md R65, 70_reset_and_hazards.md R216, 30_encoding.md R73. -/
def Obligations.BranchResult : Prop :=
  ∀ (s : State) (i : Instr) (off : Byte) (test : FlagName × Bool) (target : Addr), branchTest i.mnemonic = some test →
    i.operand = some (.memory (.relative off)) → (target.toNat : Int) = (s.pc.toNat + 2 + off.toInt) % 65536 →
      (s.branchTaken test = true → exec i s = .next { s with
        pc := target, ipoll := s.flags.i
        cycles := s.cycles + if target.toNat / 256 = (s.pc + 2).toNat / 256 then 3 else 4 }) ∧
      (s.branchTaken test = false → exec i s = .next { s with
        pc := s.pc + 2, ipoll := s.flags.i, cycles := s.cycles + 2 })

/-- Its opcode is $4C, low address byte first; from every state it completes with PC at the operand, Ipoll at I, three cycles
counted, and nothing else changed: no flag, no register, no memory. States R119. -/
def Obligations.JumpAbsoluteResult : Prop :=
  ∀ (s : State) (addr : Addr), encode (.jmpAbs addr) = [0x4C, loByte addr, hiByte addr] ∧
    exec (.jmpAbs addr) s = .next { s with pc := addr, ipoll := s.flags.i, cycles := s.cycles + 3 }

/-- Where the pointer w and the address with w's page and the low byte one more modulo 256 are accessible, JMP Indirect
completes in five cycles with PC at low + 256 * high of the bytes there; so JMP ($12FF) reads $12FF and $1200. Nothing else
changes but Ipoll. Rests on 43_branch_jump.md R120, 30_encoding.md R62, 20_memory.md R43. -/
def Obligations.JumpIndirectResult : Prop :=
  ∀ (s : State) (w q target : Addr), q.toNat = w.toNat / 256 * 256 + (w.toNat + 1) % 256 →
    s.accessible w = true → s.accessible q = true → target.toNat = (s.peek w).toNat + 256 * (s.peek q).toNat →
      exec (.jmpInd w) s = .next { s with pc := target, ipoll := s.flags.i, cycles := s.cycles + 5 }

/-- Where the two stack addresses are accessible, JSR completes in six cycles: hi(PC + 2) is stored at $0100 + SP, then lo(PC +
2) one below in the page, SP falls by 2 modulo 256, PC becomes the operand, Ipoll takes I, no flag changes; on a plain RAM
stack those two addresses then read as those bytes and every address with another cell as before. Rests on 43_branch_jump.md
R121, 44_stack_flags.md R130, 20_memory.md R34. -/
def Obligations.JsrResult : Prop :=
  ∀ (s : State) (addr : Addr), s.accessible (stackAddr s.sp) = true → s.accessible (stackAddr (s.sp - 1)) = true →
    ∃ t, exec (.jsr addr) s = .next t ∧
      t = { (s.poke (stackAddr s.sp) (hiByte (s.pc + 2))).poke (stackAddr (s.sp - 1)) (loByte (s.pc + 2)) with
            sp := s.sp - 2, pc := addr, ipoll := s.flags.i, cycles := s.cycles + 6 } ∧
      (s.PlainStack → t.peek (0x0100 + s.sp.setWidth 16) = hiByte (s.pc + 2) ∧
        t.peek (0x0100 + (s.sp - 1).setWidth 16) = loByte (s.pc + 2)) ∧
      ∀ b, s.cellOf b ≠ s.cellOf (stackAddr s.sp) → s.cellOf b ≠ s.cellOf (stackAddr (s.sp - 1)) → t.peek b = s.peek b

/-- Where the two stack addresses are accessible, RTS completes in six cycles: PC becomes the 16-bit value of the bytes at $0100
+ SP + 1 (low) and $0100 + SP + 2 (high), plus one modulo 65536; SP rises by 2 modulo 256; no flag and no memory changes.
Rests on 43_branch_jump.md R122, 44_stack_flags.md R131, 20_memory.md R43. -/
def Obligations.RtsResult : Prop :=
  ∀ (s : State) (p q target : Addr), p = 0x0100 + (s.sp + 1).setWidth 16 → q = 0x0100 + (s.sp + 2).setWidth 16 →
    s.accessible p = true → s.accessible q = true →
    target.toNat = ((s.peek p).toNat + 256 * (s.peek q).toNat + 1) % 65536 →
      exec .rts s = .next { s with sp := s.sp + 2, pc := target, ipoll := s.flags.i, cycles := s.cycles + 6 }

/-- On a plain RAM stack, after JSR, in any state with the same parameters, the SP that JSR left and the same bytes on the stack
page, RTS completes with PC three bytes past the JSR and SP as before the JSR. Rests on 43_branch_jump.md R121,
43_branch_jump.md R122. -/
def Obligations.JsrThenRtsReturns : Prop :=
  ∀ (s t h : State) (addr : Addr), s.PlainStack → exec (.jsr addr) s = .next t → h.cfg = s.cfg → h.sp = t.sp →
    (∀ p : Byte, h.peek (stackAddr p) = t.peek (stackAddr p)) →
      ∃ u, exec .rts h = .next u ∧ u.pc = s.pc + 3 ∧ u.sp = s.sp ∧ u.flags = h.flags ∧ u.mem = h.mem

/-- Where $0100 + SP is accessible, PHA stores A there and PHP the status byte N V 1 1 D I Z C; SP falls by one modulo 256, PC
moves by one, Ipoll takes I, three cycles are counted, and no register or flag changes. Rests on 44_stack_flags.md R132,
44_stack_flags.md R133, 44_stack_flags.md R130, 10_state.md R16. -/
def Obligations.PushInstructions : Prop :=
  ∀ (s : State) (p : Addr), p = 0x0100 + s.sp.setWidth 16 → s.accessible p = true →
    (∃ t, exec .pha s = .next t ∧ s.ByteStored t p s.a ∧ t = { s with
      mem := t.mem, sp := s.sp - 1, pc := s.pc + 1, ipoll := s.flags.i, cycles := s.cycles + 3 }) ∧
    ∃ t v, exec .php s = .next t ∧ s.ByteStored t p v ∧ v.getLsbD 7 = s.flags.n ∧ v.getLsbD 6 = s.flags.v ∧
      v.getLsbD 5 = true ∧ v.getLsbD 4 = true ∧ v.getLsbD 3 = s.flags.d ∧ v.getLsbD 2 = s.flags.i ∧
      v.getLsbD 1 = s.flags.z ∧ v.getLsbD 0 = s.flags.c ∧ t = { s with
        mem := t.mem, sp := s.sp - 1, pc := s.pc + 1, ipoll := s.flags.i, cycles := s.cycles + 3 }

/-- Where $0100 + ((SP + 1) mod 256) is accessible and holds v, SP rises to SP + 1; PLA puts v in A and sets N and Z from it,
with Ipoll at I; PLP loads N V D I Z C from bits 7 6 3 2 1 0 of v, with Ipoll at the I of before; four cycles, PC moves by
one, no memory changes. Rests on 44_stack_flags.md R134, 44_stack_flags.md R135, 44_stack_flags.md R131, 60_exceptions.md
R190. -/
def Obligations.PullInstructions : Prop :=
  ∀ (s : State) (v : Byte), s.read (0x0100 + (s.sp + 1).setWidth 16) = .ok v →
    exec .pla s = .next { s with
      a := v, sp := s.sp + 1, flags := s.flags.setNZ v, pc := s.pc + 1, ipoll := s.flags.i, cycles := s.cycles + 4 } ∧
    exec .plp s = .next { s with
      sp := s.sp + 1
      flags := { n := v.getLsbD 7, v := v.getLsbD 6, d := v.getLsbD 3, i := v.getLsbD 2, z := v.getLsbD 1, c := v.getLsbD 0 }
      pc := s.pc + 1, ipoll := s.flags.i, cycles := s.cycles + 4 }

/-- Where $0100 + SP is ram, PHP completes, and PLP in the state it gives completes with the six flags and SP of before. Rests
on 44_stack_flags.md R133, 44_stack_flags.md R135. -/
def Obligations.PhpThenPlpKeepsFlags : Prop :=
  ∀ s : State, s.classOf (0x0100 + s.sp.setWidth 16) = .ram →
    ∃ t u, exec .php s = .next t ∧ exec .plp t = .next u ∧ u.flags = s.flags ∧ u.sp = s.sp ∧ u.mem = t.mem

/-- Each is one byte and two cycles, accesses no memory and completes from every state; TSX changes X, N and Z, TXS changes SP
only, beside PC, Ipoll and the cycle count. Rests on 44_stack_flags.md R136, 44_stack_flags.md R137. -/
def Obligations.StackPointerTransfers : Prop :=
  encode .tsx = [0xBA] ∧ encode .txs = [0x9A] ∧
    ∀ s : State,
      exec .tsx s = .next { s with
        x := s.sp, flags := s.flags.setNZ s.sp, pc := s.pc + 1, ipoll := s.flags.i, cycles := s.cycles + 2 } ∧
      exec .txs s = .next { s with sp := s.x, pc := s.pc + 1, ipoll := s.flags.i, cycles := s.cycles + 2 }

/-- Each is one byte with its opcode and takes two cycles; from every state it completes with the value copied, N and Z of that
value, and nothing else changed but PC, Ipoll and the cycle count. No other transfer between A, X, Y and SP exists: an
instruction that, whenever it completes, leaves in one of these registers what another of them held is one of these four,
TSX or TXS, from its source to its destination. So there is none between X and Y and none between A and SP. States R160,
R161, R162, R163. -/
def Obligations.RegisterTransfers : Prop :=
  encode .tax = [0xAA] ∧ encode .tay = [0xA8] ∧ encode .txa = [0x8A] ∧ encode .tya = [0x98] ∧
    (∀ (i : Instr) (src dst : RegName), src ≠ dst → IsTransfer i src dst →
      (i, src, dst) ∈ [(Instr.tax, RegName.a, RegName.x), (.tay, .a, .y), (.txa, .x, .a), (.tya, .y, .a), (.tsx, .sp, .x),
        (.txs, .x, .sp)]) ∧
    ∀ s : State,
      exec .tax s = .next { s with
        x := s.a, flags := s.flags.setNZ s.a, pc := s.pc + 1, ipoll := s.flags.i, cycles := s.cycles + 2 } ∧
      exec .tay s = .next { s with
        y := s.a, flags := s.flags.setNZ s.a, pc := s.pc + 1, ipoll := s.flags.i, cycles := s.cycles + 2 } ∧
      exec .txa s = .next { s with
        a := s.x, flags := s.flags.setNZ s.x, pc := s.pc + 1, ipoll := s.flags.i, cycles := s.cycles + 2 } ∧
      exec .tya s = .next { s with
        a := s.y, flags := s.flags.setNZ s.y, pc := s.pc + 1, ipoll := s.flags.i, cycles := s.cycles + 2 }

/-- Each is one byte with its opcode and takes two cycles; from every state it completes with its one flag written and nothing
else changed but PC, Ipoll and the cycle count. (CLV and SED are covered too; R144 is not cited because it also says that no
SEV exists, nor R146 because it also speaks of a later ADC or SBC.) States R140, R141, R145. -/
def Obligations.FlagInstructions : Prop :=
  encode .clc = [0x18] ∧ encode .sec = [0x38] ∧ encode .clv = [0xB8] ∧ encode .cld = [0xD8] ∧ encode .sed = [0xF8] ∧
    ∀ s : State,
      exec .clc s = .next { s with
        flags := { s.flags with c := false }, pc := s.pc + 1, ipoll := s.flags.i, cycles := s.cycles + 2 } ∧
      exec .sec s = .next { s with
        flags := { s.flags with c := true }, pc := s.pc + 1, ipoll := s.flags.i, cycles := s.cycles + 2 } ∧
      exec .clv s = .next { s with
        flags := { s.flags with v := false }, pc := s.pc + 1, ipoll := s.flags.i, cycles := s.cycles + 2 } ∧
      exec .cld s = .next { s with
        flags := { s.flags with d := false }, pc := s.pc + 1, ipoll := s.flags.i, cycles := s.cycles + 2 } ∧
      exec .sed s = .next { s with
        flags := { s.flags with d := true }, pc := s.pc + 1, ipoll := s.flags.i, cycles := s.cycles + 2 }

/-- CLI and SEI complete from every state with I written, Ipoll at the I of before, and nothing else changed but PC and the
cycle count; so with I=1 before, no boundary straight after a CLI takes an IRQ, and with I=0 before, a boundary straight
after a SEI with the line active, no reset, no pending NMI and nothing put off takes the IRQ. Rests on 44_stack_flags.md
R142, 44_stack_flags.md R143, 60_exceptions.md R190, 60_exceptions.md R182. -/
def Obligations.InterruptMaskInstructions : Prop :=
  ∀ s : State,
    exec .cli s = .next { s with
      flags := { s.flags with i := false }, pc := s.pc + 1, ipoll := s.flags.i, cycles := s.cycles + 2 } ∧
    exec .sei s = .next { s with
      flags := { s.flags with i := true }, pc := s.pc + 1, ipoll := s.flags.i, cycles := s.cycles + 2 } ∧
    (∀ t, exec .cli s = .next t → s.flags.i = true → t.sampled.event t.boundary ≠ some .irq) ∧
    ∀ t, exec .sei s = .next t → s.flags.i = false → t.boundary.reset = none →
      (t.nmiPending || t.boundary.nmiEdge) = false → t.boundary.irqLine = true → t.boundary.defer = false →
        t.sampled.event t.boundary = some .irq

/-- For every form of CMP, CPX and CPY whose operand byte m can be read: C says that the register is at least m unsigned, Z that
they are equal, N is bit 7 of the difference modulo 256; V, D, I, every register and memory stay. Rests on 45_compare_bit.md
R150, 45_compare_bit.md R151, 45_compare_bit.md R152, 47_supplement.md R164, 10_state.md R24. -/
def Obligations.CompareResult : Prop :=
  ∀ (s : State) (i : Instr) (o : Operand) (reg m r : Byte), i.operand = some o → s.operandByte o = .ok m →
    s.comparedRegister i.mnemonic = some reg → (r.toNat : Int) = (reg.toNat - m.toNat) % 256 →
      ∃ k, exec i s = .next { s with
        flags := { s.flags with n := r.getLsbD 7, z := decide (reg = m), c := decide (m.toNat ≤ reg.toNat) }
        pc := s.pc + BitVec.ofNat 16 (operandLength o), ipoll := s.flags.i, cycles := k }

/-- For both forms of BIT whose operand byte m can be read: Z says that A & m is zero, N is bit 7 and V bit 6 of m itself; C, D,
I, every register and memory stay. Rests on 45_compare_bit.md R153. -/
def Obligations.BitResult : Prop :=
  ∀ (s : State) (i : Instr) (o : Operand) (m : Byte), i.mnemonic = .bit → i.operand = some o → s.operandByte o = .ok m →
    ∃ k, exec i s = .next { s with
      flags := { s.flags with n := m.getLsbD 7, v := m.getLsbD 6, z := decide (s.a &&& m = 0x00) }
      pc := s.pc + BitVec.ofNat 16 (operandLength o), ipoll := s.flags.i, cycles := k }

/-- NOP is the one byte $EA and takes two cycles; it is the only instruction with its mnemonic; from every state it completes
with PC one more, Ipoll at I, and nothing else changed. States R155. -/
def Obligations.NopResult : Prop :=
  encode .nop = [0xEA] ∧ (∀ i : Instr, i.mnemonic = .nop → i = .nop) ∧
    ∀ s : State, exec .nop s = .next { s with pc := s.pc + 1, ipoll := s.flags.i, cycles := s.cycles + 2 }

/-- Where the three stack addresses and the vector are accessible, BRK completes whatever I is: hi(PC + 2), lo(PC + 2) and the
status byte with bits 5 and 4 set and the old I are stored downward from $0100 + SP, SP falls by 3, I and Ipoll become 1, N
V D Z C stay, PC is read from $FFFE (low) and $FFFF (high) after the pushes, and seven cycles are counted. Rests on
46_system.md R156, 60_exceptions.md R186, 10_state.md R20. -/
def Obligations.BrkResult : Prop :=
  ∀ (s f : State), s.accessible (stackAddr s.sp) = true → s.accessible (stackAddr (s.sp - 1)) = true →
    s.accessible (stackAddr (s.sp - 2)) = true → s.accessible 0xFFFE = true → s.accessible 0xFFFF = true →
    f = ((s.poke (stackAddr s.sp) (hiByte (s.pc + 2))).poke (stackAddr (s.sp - 1)) (loByte (s.pc + 2))).poke
      (stackAddr (s.sp - 2)) (s.flags.toByte true) →
      exec .brk s = .next { f with
        sp := s.sp - 3, flags := { s.flags with i := true }, ipoll := true
        pc := wordOf (f.peek 0xFFFF) (f.peek 0xFFFE), cycles := s.cycles + 7 }

/-- Where the three stack addresses above SP are accessible, RTI completes in six cycles: the six flags come from the first byte
(bits 5 and 4 dropped), PC from the next two, low byte first; SP rises by 3; Ipoll takes the restored I; A, X, Y and memory
stay. Rests on 46_system.md R157, 60_exceptions.md R189, 60_exceptions.md R190. -/
def Obligations.RtiResult : Prop :=
  ∀ (s : State) (v l h : Byte), s.read (stackAddr (s.sp + 1)) = .ok v → s.read (stackAddr (s.sp + 2)) = .ok l →
    s.read (stackAddr (s.sp + 3)) = .ok h →
      exec .rti s = .next { s with
        sp := s.sp + 3
        flags := { n := v.getLsbD 7, v := v.getLsbD 6, d := v.getLsbD 3, i := v.getLsbD 2, z := v.getLsbD 1, c := v.getLsbD 0 }
        pc := wordOf h l, ipoll := v.getLsbD 2, cycles := s.cycles + 6 }

/-- On a plain RAM stack, after an exception with return address ret (PC for NMI and IRQ, PC + 2 for BRK), in any state with the
same parameters, the SP the entry left and the same bytes on the stack page, RTI completes with PC at ret, and SP and the
six flags of before the entry, Ipoll at the restored I. Rests on 60_exceptions.md R185, 60_exceptions.md R189, 46_system.md
R156, 46_system.md R157. -/
def Obligations.ExceptionThenRtiReturns : Prop :=
  ∀ (s t h : State) (ret : Addr) (brk : Bool) (vector : Addr), s.PlainStack →
    s.takeException ret brk vector = .ok t → h.cfg = s.cfg → h.sp = t.sp →
    (∀ p : Byte, h.peek (stackAddr p) = t.peek (stackAddr p)) →
      ∃ u, exec .rti h = .next u ∧ u.pc = ret ∧ u.sp = s.sp ∧ u.flags = s.flags ∧ u.ipoll = s.flags.i ∧ u.mem = h.mem

/-- At a boundary without reset, with an NMI latched before or now and not put off, and the stack and vector addresses
accessible: PC is pushed high byte first, then the status byte with bit 5 set and bit 4 clear; SP falls by 3; I and Ipoll
become 1; nmi_pending becomes 0; N V D Z C, A, X and Y stay; PC is read from $FFFA and $FFFB; seven cycles. I and Ipoll of
before do not matter. Rests on 60_exceptions.md R183, 60_exceptions.md R184, 60_exceptions.md R185, 60_exceptions.md R186. -/
def Obligations.NmiEntryResult : Prop :=
  ∀ (s f : State), s.boundary.reset = none → (s.nmiPending || s.boundary.nmiEdge) = true →
    s.boundary.defer = false → s.accessible (stackAddr s.sp) = true → s.accessible (stackAddr (s.sp - 1)) = true →
    s.accessible (stackAddr (s.sp - 2)) = true → s.accessible 0xFFFA = true → s.accessible 0xFFFB = true →
    f = ((s.sampled.poke (stackAddr s.sp) (hiByte s.pc)).poke (stackAddr (s.sp - 1)) (loByte s.pc)).poke
      (stackAddr (s.sp - 2)) (s.flags.toByte false) →
      step s = .next { f with
        sp := s.sp - 3, flags := { s.flags with i := true }, ipoll := true, nmiPending := false
        pc := wordOf (f.peek 0xFFFB) (f.peek 0xFFFA), cycles := s.cycles + 7 }

/-- At a boundary without reset and without a pending NMI, with irq_line active, Ipoll 0, not put off, and the stack and vector
addresses accessible: PC is pushed high byte first, then the status byte with bit 5 set and bit 4 clear; SP falls by 3; I
and Ipoll become 1; N V D Z C, A, X and Y stay; PC is read from $FFFE and $FFFF; seven cycles. The live I of before does not
matter. Rests on 60_exceptions.md R182, 60_exceptions.md R184, 60_exceptions.md R185, 60_exceptions.md R187. -/
def Obligations.IrqEntryResult : Prop :=
  ∀ (s f : State), s.boundary.reset = none → (s.nmiPending || s.boundary.nmiEdge) = false → s.boundary.irqLine = true →
    s.ipoll = false →
    s.boundary.defer = false → s.accessible (stackAddr s.sp) = true → s.accessible (stackAddr (s.sp - 1)) = true →
    s.accessible (stackAddr (s.sp - 2)) = true → s.accessible 0xFFFE = true → s.accessible 0xFFFF = true →
    f = ((s.sampled.poke (stackAddr s.sp) (hiByte s.pc)).poke (stackAddr (s.sp - 1)) (loByte s.pc)).poke
      (stackAddr (s.sp - 2)) (s.flags.toByte false) →
      step s = .next { f with
        sp := s.sp - 3, flags := { s.flags with i := true }, ipoll := true
        pc := wordOf (f.peek 0xFFFF) (f.peek 0xFFFE), cycles := s.cycles + 7 }

/-- At a boundary that asserts reset, with the reset vector accessible, the step completes in seven cycles: SP falls by 3,
memory is unchanged, I = 1, Ipoll = 1, nmi_pending = 0, PC is read from $FFFC (low) and $FFFD (high). Under the input keep,
A X Y N V D Z C keep their values; under draw nothing is said of them but that the draw counter advances (log entry 12).
Rests on 70_reset_and_hazards.md R210, 10_state.md R27, 60_exceptions.md R184, 95_test_vectors.md S6. -/
def Obligations.ResetTaken : Prop :=
  ∀ (s : State) (r : ResetInput), s.boundary.reset = some r → s.accessible 0xFFFC = true → s.accessible 0xFFFD = true →
    ∃ t, step s = .next t ∧ t.sp = s.sp - 3 ∧ t.mem = s.mem ∧ t.flags.i = true ∧ t.ipoll = true ∧
      t.nmiPending = false ∧ t.pc = wordOf (s.peek 0xFFFD) (s.peek 0xFFFC) ∧ t.cycles = s.cycles + 7 ∧
      (r = .keep → t.a = s.a ∧ t.x = s.x ∧ t.y = s.y ∧ t.flags = { s.flags with i := true } ∧ t.draws = s.draws) ∧
      (r = .draw → t.draws = s.draws + 1)

/-- When an instruction answers a next state, Ipoll there is the I of before for CLI, SEI and PLP, 1 for BRK, and the I of after
for every other instruction, RTI included; when an event is taken, Ipoll is 1. Rests on 60_exceptions.md R190,
30_encoding.md R52. -/
def Obligations.IpollAfterEveryStep : Prop :=
  (∀ (i : Instr) (s t : State), exec i s = .next t →
      ((i.mnemonic = .cli ∨ i.mnemonic = .sei ∨ i.mnemonic = .plp) → t.ipoll = s.flags.i) ∧
      (i.mnemonic = .brk → t.ipoll = true) ∧
      (i.mnemonic ≠ .cli → i.mnemonic ≠ .sei → i.mnemonic ≠ .plp → t.ipoll = t.flags.i)) ∧
    ∀ (e : Event) (s t : State), s.takeEvent e = .ok t → t.ipoll = true ∧ t.flags.i = true

/-- When an instruction answers a next state, every one of the six stored flags that the Flags Affected column does not list for
its mnemonic has the value it had; the column is the same for every addressing form. Rests on 10_state.md R25, 10_state.md
R16. -/
def Obligations.FlagFrame : Prop :=
  ∀ (i : Instr) (s t : State) (f : FlagName), exec i s = .next t → f ∉ flagsAffected i.mnemonic →
    t.flags.get f = s.flags.get f

/-- When an instruction answers a next state, each of A, X, Y and SP that R11 to R14 do not list as written by it (a shift
writes A in Accumulator mode only) is unchanged; nmi_pending, irq_line, the coming inputs, the draw counter and the
parameters are unchanged by every instruction. Rests on 10_state.md R11, 10_state.md R12, 10_state.md R13, 10_state.md R14,
10_state.md R26. -/
def Obligations.RegisterFrame : Prop :=
  ∀ (i : Instr) (s t : State), exec i s = .next t →
    (∀ r : RegName, r ∉ registersWritten i → t.reg r = s.reg r) ∧ t.nmiPending = s.nmiPending ∧
      t.irqLine = s.irqLine ∧ t.inputs = s.inputs ∧ t.draws = s.draws ∧ t.cfg = s.cfg

/-- When an instruction answers a next state, the addresses it stores to are those its operand form or the stack gives (one for
a store or read-modify-write and for PHA and PHP, two for JSR, three for BRK, none otherwise); every address that reaches
the cell of none of them reads as before, and an instruction that stores to none leaves memory equal. Rests on 20_memory.md
R37, 20_memory.md R38, 20_memory.md R44, 40_load_store.md R81, 41_arithmetic.md R92. -/
def Obligations.MemoryFrame : Prop :=
  ∀ (i : Instr) (s t : State), exec i s = .next t →
    (∃ targets, s.storeTargets i = .ok targets) ∧
      ∀ targets, s.storeTargets i = .ok targets →
        (targets = [] → t.mem = s.mem) ∧
          ∀ b, (∀ addr ∈ targets, s.cellOf b ≠ s.cellOf addr) → t.peek b = s.peek b

/-- When an instruction other than a branch, JMP, JSR, RTS, BRK and RTI answers a next state, PC is PC plus the instruction's
length modulo 65536, and that length is the number of bytes of its encoding, 1, 2 or 3. Rests on 10_state.md R15,
30_encoding.md R50, 30_encoding.md R52. -/
def Obligations.PcAdvances : Prop :=
  ∀ (i : Instr) (s t : State), exec i s = .next t → branchTest i.mnemonic = none →
    i.mnemonic ∉ [Mnemonic.jmp, .jsr, .rts, .brk, .rti] →
      t.pc.toNat = (s.pc.toNat + (encode i).length) % 65536 ∧ 1 ≤ (encode i).length ∧ (encode i).length ≤ 3

/-- Every instruction but a branch has an entry in the cycle table; when it answers a next state the observer's counter has
grown by the entry: by a single figure exactly, by the lower figure of a range plus one when the mode crosses a page. That
the counter exists is the model's choice (log entry 15). Rests on 70_reset_and_hazards.md R214, 70_reset_and_hazards.md
R215, 47_supplement.md R164, 30_encoding.md R73. -/
def Obligations.CycleCounts : Prop :=
  (∀ i : Instr, branchTest i.mnemonic = none → cycleEntry i ≠ none) ∧
    ∀ (i : Instr) (s t : State) (n : Nat), exec i s = .next t →
      (cycleEntry i = some (.fixed n) → t.cycles = s.cycles + n) ∧
        ∀ m, i.operand = some (.memory m) → cycleEntry i = some (.range n) →
          t.cycles = s.cycles + if s.crossesPage m = true then n + 1 else n

/-- For Absolute,X, Absolute,Y and (Indirect),Y, the predicate (low base byte plus index over 255) holds exactly when the high
byte of the effective address differs from that of the base; it never holds for the zero-page indexed modes and
(Indirect,X). Rests on 30_encoding.md R73, 70_reset_and_hazards.md R215, 30_encoding.md R60, 30_encoding.md R64. -/
def Obligations.PageCrossingMeansAnotherPage : Prop :=
  ∀ (s : State) (b : Byte) (w base : Addr),
    (s.crossesPage (.absoluteX w) = true ↔ (w + s.x.setWidth 16).toNat / 256 ≠ w.toNat / 256) ∧
      (s.crossesPage (.absoluteY w) = true ↔ (w + s.y.setWidth 16).toNat / 256 ≠ w.toNat / 256) ∧
      (s.zeroPagePointer b = .ok base →
        (s.crossesPage (.indirectY b) = true ↔ (base + s.y.setWidth 16).toNat / 256 ≠ base.toNat / 256)) ∧
      s.crossesPage (.zeroPageX b) = false ∧ s.crossesPage (.zeroPageY b) = false ∧ s.crossesPage (.indirectX b) = false

/-- Two states that differ only in the cycle counter take the same step: the same fault, the same refusal, or next states that
again differ at most in the counter. Rests on 70_reset_and_hazards.md R218, 60_exceptions.md R192. -/
def Obligations.CyclesNotObservable : Prop :=
  ∀ (s : State) (n : Nat),
    (∀ t, step s = .next t → ∃ k, step { s with cycles := n } = .next { t with cycles := k }) ∧
      (∀ f, step s = .fault f → step { s with cycles := n } = .fault f) ∧
      ∀ r, step s = .refused r → step { s with cycles := n } = .refused r
end

