-- ==== Sys2Proof/Laws/Memory.lean ====
section
/-! SUPPORT. The laws of the canonical memory: what a read gives after a write, and that every operation keeps the form. -/

namespace Sys2Proof.Machine

theorem Memory.read_filter_same (m : Memory) (c : Nat) :
    Memory.read (m.filter fun e => e.1 != c) c = Memory.background := by
  induction m with
  | nil => rfl
  | cons e m ih =>
    obtain ⟨k, v⟩ := e
    by_cases h : k = c
    · simp [h, ih]
    · simp [h, Memory.read, ih]

theorem Memory.read_filter_other (m : Memory) {c d : Nat} (h : d ≠ c) :
    Memory.read (m.filter fun e => e.1 != c) d = Memory.read m d := by
  induction m with
  | nil => rfl
  | cons e m ih =>
    obtain ⟨k, v⟩ := e
    by_cases hk : k = c
    · have : k ≠ d := fun e => h (e ▸ hk)
      simp [hk, ih, Memory.read, Ne.symm h]
    · simp [hk, ih, Memory.read]

theorem Memory.read_place_same (m : Memory) (c : Nat) (v : Byte)
    (h : ∀ e ∈ m, e.1 ≠ c) : Memory.read (Memory.place m (c, v)) c = v := by
  induction m with
  | nil => simp [Memory.place, Memory.read]
  | cons e m ih =>
    obtain ⟨k, w⟩ := e
    have hk : k ≠ c := h (k, w) (by simp)
    have hm := ih fun e he => h e (by simp [he])
    unfold Memory.place
    split <;> simp [Memory.read, hk, hm]

theorem Memory.read_place_other (m : Memory) {c d : Nat} (v : Byte) (h : d ≠ c) :
    Memory.read (Memory.place m (c, v)) d = Memory.read m d := by
  induction m with
  | nil => simp [Memory.place, Memory.read, Ne.symm h]
  | cons e m ih =>
    obtain ⟨k, w⟩ := e
    unfold Memory.place
    split
    · simp [Memory.read, Ne.symm h]
    · simp [Memory.read, ih]

/-- A cell reads as the byte last stored in it. -/
@[simp] theorem Memory.read_write_same (m : Memory) (c : Nat) (v : Byte) :
    Memory.read (Memory.write m c v) c = v := by
  unfold Memory.write
  split
  · rename_i h
    rw [Memory.read_filter_same, h]
  · exact Memory.read_place_same _ _ _ (by simp)

/-- A store leaves every other cell alone. -/
theorem Memory.read_write_other (m : Memory) {c d : Nat} (v : Byte) (h : d ≠ c) :
    Memory.read (Memory.write m c v) d = Memory.read m d := by
  unfold Memory.write
  split
  · exact Memory.read_filter_other m h
  · rw [Memory.read_place_other _ _ h]
    exact Memory.read_filter_other m h

/-- What the canonical form says of a list that begins with an entry. -/
theorem Memory.wf_cons (k : Nat) (v : Byte) (m : Memory) :
    Memory.wf ((k, v) :: m) = true ↔
      k < 65536 ∧ v ≠ Memory.background ∧ (∀ e ∈ m, k < e.1) ∧ Memory.wf m = true := by
  simp [Memory.wf, and_assoc]

theorem Memory.wf_filter (m : Memory) (p : Host.Cell → Bool) (h : Memory.wf m = true) :
    Memory.wf (m.filter p) = true := by
  induction m with
  | nil => rfl
  | cons e m ih =>
    obtain ⟨k, v⟩ := e
    obtain ⟨h1, h2, h3, h4⟩ := (Memory.wf_cons k v m).1 h
    rw [List.filter_cons]
    split
    · exact (Memory.wf_cons k v _).2 ⟨h1, h2, fun e he => h3 e (List.mem_of_mem_filter he), ih h4⟩
    · exact ih h4

theorem Memory.mem_place (m : Memory) (e f : Host.Cell) :
    f ∈ Memory.place m e ↔ f = e ∨ f ∈ m := by
  induction m with
  | nil => simp [Memory.place]
  | cons g m ih =>
    unfold Memory.place
    split
    · simp
    · simp [ih, or_left_comm]

theorem Memory.wf_place (m : Memory) (c : Nat) (v : Byte) (h : Memory.wf m = true)
    (hc : c < 65536) (hv : v ≠ Memory.background) (hn : ∀ e ∈ m, e.1 ≠ c) :
    Memory.wf (Memory.place m (c, v)) = true := by
  induction m with
  | nil => simp [Memory.place, Memory.wf, hc, hv]
  | cons e m ih =>
    obtain ⟨k, w⟩ := e
    obtain ⟨h1, h2, h3, h4⟩ := (Memory.wf_cons k w m).1 h
    have hk : k ≠ c := hn (k, w) (by simp)
    unfold Memory.place
    split
    · rename_i hlt
      refine (Memory.wf_cons c v _).2 ⟨hc, hv, ?_, h⟩
      intro e he
      rcases List.mem_cons.1 he with rfl | he
      · exact hlt
      · exact Nat.lt_trans hlt (h3 e he)
    · rename_i hge
      refine (Memory.wf_cons k w _).2 ⟨h1, h2, ?_, ih h4 fun e he => hn e (by simp [he])⟩
      intro e he
      rcases (Memory.mem_place m (c, v) e).1 he with rfl | he
      · simp only at hge ⊢
        omega
      · exact h3 e he

/-- A store to a cell of the address space keeps the canonical form. -/
theorem Memory.wf_write (m : Memory) (c : Nat) (v : Byte) (h : Memory.wf m = true)
    (hc : c < 65536) : Memory.wf (Memory.write m c v) = true := by
  unfold Memory.write
  split
  · exact Memory.wf_filter m _ h
  · rename_i hv
    exact Memory.wf_place _ c v (Memory.wf_filter m _ h) hc hv (by simp)

end Sys2Proof.Machine
end

