-- ==== Sys2Proof/Laws/State.lean ====
section
/-! SUPPORT. One lemma per field per register update, true by rfl, so that no proof unfolds a record update; and the same for the
reads that a register update does not touch. -/

namespace Sys2Proof.Machine

@[simp] theorem State.setA_a (s : State) (v : Byte) : (s.setA v).a = v := rfl
@[simp] theorem State.setA_x (s : State) (v : Byte) : (s.setA v).x = s.x := rfl
@[simp] theorem State.setA_y (s : State) (v : Byte) : (s.setA v).y = s.y := rfl
@[simp] theorem State.setA_sp (s : State) (v : Byte) : (s.setA v).sp = s.sp := rfl
@[simp] theorem State.setA_pc (s : State) (v : Byte) : (s.setA v).pc = s.pc := rfl
@[simp] theorem State.setA_flags (s : State) (v : Byte) : (s.setA v).flags = s.flags := rfl
@[simp] theorem State.setA_nmiPending (s : State) (v : Byte) : (s.setA v).nmiPending = s.nmiPending := rfl
@[simp] theorem State.setA_ipoll (s : State) (v : Byte) : (s.setA v).ipoll = s.ipoll := rfl
@[simp] theorem State.setA_mem (s : State) (v : Byte) : (s.setA v).mem = s.mem := rfl
@[simp] theorem State.setA_irqLine (s : State) (v : Byte) : (s.setA v).irqLine = s.irqLine := rfl
@[simp] theorem State.setA_inputs (s : State) (v : Byte) : (s.setA v).inputs = s.inputs := rfl
@[simp] theorem State.setA_draws (s : State) (v : Byte) : (s.setA v).draws = s.draws := rfl
@[simp] theorem State.setA_cycles (s : State) (v : Byte) : (s.setA v).cycles = s.cycles := rfl
@[simp] theorem State.setA_cfg (s : State) (v : Byte) : (s.setA v).cfg = s.cfg := rfl
@[simp] theorem State.setA_classOf (s : State) (v : Byte) (addr : Addr) : (s.setA v).classOf addr = s.classOf addr := rfl
@[simp] theorem State.setA_cellOf (s : State) (v : Byte) (addr : Addr) : (s.setA v).cellOf addr = s.cellOf addr := rfl
@[simp] theorem State.setA_accessible (s : State) (v : Byte) (addr : Addr) : (s.setA v).accessible addr = s.accessible addr := rfl
@[simp] theorem State.setA_peek (s : State) (v : Byte) (addr : Addr) : (s.setA v).peek addr = s.peek addr := rfl
@[simp] theorem State.setA_checkAddress (s : State) (v : Byte) (addr : Addr) : (s.setA v).checkAddress addr = s.checkAddress addr := rfl
@[simp] theorem State.setA_read (s : State) (v : Byte) (addr : Addr) : (s.setA v).read addr = s.read addr := rfl
@[simp] theorem State.setA_stored (s : State) (v : Byte) (addr : Addr) (b : Byte) :
    (s.setA v).stored addr b = s.stored addr b := rfl
@[simp] theorem State.setA_poke (s : State) (v : Byte) (addr : Addr) (b : Byte) :
    (s.setA v).poke addr b = (s.poke addr b).setA v := rfl

@[simp] theorem State.setX_a (s : State) (v : Byte) : (s.setX v).a = s.a := rfl
@[simp] theorem State.setX_x (s : State) (v : Byte) : (s.setX v).x = v := rfl
@[simp] theorem State.setX_y (s : State) (v : Byte) : (s.setX v).y = s.y := rfl
@[simp] theorem State.setX_sp (s : State) (v : Byte) : (s.setX v).sp = s.sp := rfl
@[simp] theorem State.setX_pc (s : State) (v : Byte) : (s.setX v).pc = s.pc := rfl
@[simp] theorem State.setX_flags (s : State) (v : Byte) : (s.setX v).flags = s.flags := rfl
@[simp] theorem State.setX_nmiPending (s : State) (v : Byte) : (s.setX v).nmiPending = s.nmiPending := rfl
@[simp] theorem State.setX_ipoll (s : State) (v : Byte) : (s.setX v).ipoll = s.ipoll := rfl
@[simp] theorem State.setX_mem (s : State) (v : Byte) : (s.setX v).mem = s.mem := rfl
@[simp] theorem State.setX_irqLine (s : State) (v : Byte) : (s.setX v).irqLine = s.irqLine := rfl
@[simp] theorem State.setX_inputs (s : State) (v : Byte) : (s.setX v).inputs = s.inputs := rfl
@[simp] theorem State.setX_draws (s : State) (v : Byte) : (s.setX v).draws = s.draws := rfl
@[simp] theorem State.setX_cycles (s : State) (v : Byte) : (s.setX v).cycles = s.cycles := rfl
@[simp] theorem State.setX_cfg (s : State) (v : Byte) : (s.setX v).cfg = s.cfg := rfl
@[simp] theorem State.setX_classOf (s : State) (v : Byte) (addr : Addr) : (s.setX v).classOf addr = s.classOf addr := rfl
@[simp] theorem State.setX_cellOf (s : State) (v : Byte) (addr : Addr) : (s.setX v).cellOf addr = s.cellOf addr := rfl
@[simp] theorem State.setX_accessible (s : State) (v : Byte) (addr : Addr) : (s.setX v).accessible addr = s.accessible addr := rfl
@[simp] theorem State.setX_peek (s : State) (v : Byte) (addr : Addr) : (s.setX v).peek addr = s.peek addr := rfl
@[simp] theorem State.setX_checkAddress (s : State) (v : Byte) (addr : Addr) : (s.setX v).checkAddress addr = s.checkAddress addr := rfl
@[simp] theorem State.setX_read (s : State) (v : Byte) (addr : Addr) : (s.setX v).read addr = s.read addr := rfl
@[simp] theorem State.setX_stored (s : State) (v : Byte) (addr : Addr) (b : Byte) :
    (s.setX v).stored addr b = s.stored addr b := rfl
@[simp] theorem State.setX_poke (s : State) (v : Byte) (addr : Addr) (b : Byte) :
    (s.setX v).poke addr b = (s.poke addr b).setX v := rfl

@[simp] theorem State.setY_a (s : State) (v : Byte) : (s.setY v).a = s.a := rfl
@[simp] theorem State.setY_x (s : State) (v : Byte) : (s.setY v).x = s.x := rfl
@[simp] theorem State.setY_y (s : State) (v : Byte) : (s.setY v).y = v := rfl
@[simp] theorem State.setY_sp (s : State) (v : Byte) : (s.setY v).sp = s.sp := rfl
@[simp] theorem State.setY_pc (s : State) (v : Byte) : (s.setY v).pc = s.pc := rfl
@[simp] theorem State.setY_flags (s : State) (v : Byte) : (s.setY v).flags = s.flags := rfl
@[simp] theorem State.setY_nmiPending (s : State) (v : Byte) : (s.setY v).nmiPending = s.nmiPending := rfl
@[simp] theorem State.setY_ipoll (s : State) (v : Byte) : (s.setY v).ipoll = s.ipoll := rfl
@[simp] theorem State.setY_mem (s : State) (v : Byte) : (s.setY v).mem = s.mem := rfl
@[simp] theorem State.setY_irqLine (s : State) (v : Byte) : (s.setY v).irqLine = s.irqLine := rfl
@[simp] theorem State.setY_inputs (s : State) (v : Byte) : (s.setY v).inputs = s.inputs := rfl
@[simp] theorem State.setY_draws (s : State) (v : Byte) : (s.setY v).draws = s.draws := rfl
@[simp] theorem State.setY_cycles (s : State) (v : Byte) : (s.setY v).cycles = s.cycles := rfl
@[simp] theorem State.setY_cfg (s : State) (v : Byte) : (s.setY v).cfg = s.cfg := rfl
@[simp] theorem State.setY_classOf (s : State) (v : Byte) (addr : Addr) : (s.setY v).classOf addr = s.classOf addr := rfl
@[simp] theorem State.setY_cellOf (s : State) (v : Byte) (addr : Addr) : (s.setY v).cellOf addr = s.cellOf addr := rfl
@[simp] theorem State.setY_accessible (s : State) (v : Byte) (addr : Addr) : (s.setY v).accessible addr = s.accessible addr := rfl
@[simp] theorem State.setY_peek (s : State) (v : Byte) (addr : Addr) : (s.setY v).peek addr = s.peek addr := rfl
@[simp] theorem State.setY_checkAddress (s : State) (v : Byte) (addr : Addr) : (s.setY v).checkAddress addr = s.checkAddress addr := rfl
@[simp] theorem State.setY_read (s : State) (v : Byte) (addr : Addr) : (s.setY v).read addr = s.read addr := rfl
@[simp] theorem State.setY_stored (s : State) (v : Byte) (addr : Addr) (b : Byte) :
    (s.setY v).stored addr b = s.stored addr b := rfl
@[simp] theorem State.setY_poke (s : State) (v : Byte) (addr : Addr) (b : Byte) :
    (s.setY v).poke addr b = (s.poke addr b).setY v := rfl

@[simp] theorem State.setSp_a (s : State) (v : Byte) : (s.setSp v).a = s.a := rfl
@[simp] theorem State.setSp_x (s : State) (v : Byte) : (s.setSp v).x = s.x := rfl
@[simp] theorem State.setSp_y (s : State) (v : Byte) : (s.setSp v).y = s.y := rfl
@[simp] theorem State.setSp_sp (s : State) (v : Byte) : (s.setSp v).sp = v := rfl
@[simp] theorem State.setSp_pc (s : State) (v : Byte) : (s.setSp v).pc = s.pc := rfl
@[simp] theorem State.setSp_flags (s : State) (v : Byte) : (s.setSp v).flags = s.flags := rfl
@[simp] theorem State.setSp_nmiPending (s : State) (v : Byte) : (s.setSp v).nmiPending = s.nmiPending := rfl
@[simp] theorem State.setSp_ipoll (s : State) (v : Byte) : (s.setSp v).ipoll = s.ipoll := rfl
@[simp] theorem State.setSp_mem (s : State) (v : Byte) : (s.setSp v).mem = s.mem := rfl
@[simp] theorem State.setSp_irqLine (s : State) (v : Byte) : (s.setSp v).irqLine = s.irqLine := rfl
@[simp] theorem State.setSp_inputs (s : State) (v : Byte) : (s.setSp v).inputs = s.inputs := rfl
@[simp] theorem State.setSp_draws (s : State) (v : Byte) : (s.setSp v).draws = s.draws := rfl
@[simp] theorem State.setSp_cycles (s : State) (v : Byte) : (s.setSp v).cycles = s.cycles := rfl
@[simp] theorem State.setSp_cfg (s : State) (v : Byte) : (s.setSp v).cfg = s.cfg := rfl
@[simp] theorem State.setSp_classOf (s : State) (v : Byte) (addr : Addr) : (s.setSp v).classOf addr = s.classOf addr := rfl
@[simp] theorem State.setSp_cellOf (s : State) (v : Byte) (addr : Addr) : (s.setSp v).cellOf addr = s.cellOf addr := rfl
@[simp] theorem State.setSp_accessible (s : State) (v : Byte) (addr : Addr) : (s.setSp v).accessible addr = s.accessible addr := rfl
@[simp] theorem State.setSp_peek (s : State) (v : Byte) (addr : Addr) : (s.setSp v).peek addr = s.peek addr := rfl
@[simp] theorem State.setSp_checkAddress (s : State) (v : Byte) (addr : Addr) : (s.setSp v).checkAddress addr = s.checkAddress addr := rfl
@[simp] theorem State.setSp_read (s : State) (v : Byte) (addr : Addr) : (s.setSp v).read addr = s.read addr := rfl
@[simp] theorem State.setSp_stored (s : State) (v : Byte) (addr : Addr) (b : Byte) :
    (s.setSp v).stored addr b = s.stored addr b := rfl
@[simp] theorem State.setSp_poke (s : State) (v : Byte) (addr : Addr) (b : Byte) :
    (s.setSp v).poke addr b = (s.poke addr b).setSp v := rfl

@[simp] theorem State.setPc_a (s : State) (v : Addr) : (s.setPc v).a = s.a := rfl
@[simp] theorem State.setPc_x (s : State) (v : Addr) : (s.setPc v).x = s.x := rfl
@[simp] theorem State.setPc_y (s : State) (v : Addr) : (s.setPc v).y = s.y := rfl
@[simp] theorem State.setPc_sp (s : State) (v : Addr) : (s.setPc v).sp = s.sp := rfl
@[simp] theorem State.setPc_pc (s : State) (v : Addr) : (s.setPc v).pc = v := rfl
@[simp] theorem State.setPc_flags (s : State) (v : Addr) : (s.setPc v).flags = s.flags := rfl
@[simp] theorem State.setPc_nmiPending (s : State) (v : Addr) : (s.setPc v).nmiPending = s.nmiPending := rfl
@[simp] theorem State.setPc_ipoll (s : State) (v : Addr) : (s.setPc v).ipoll = s.ipoll := rfl
@[simp] theorem State.setPc_mem (s : State) (v : Addr) : (s.setPc v).mem = s.mem := rfl
@[simp] theorem State.setPc_irqLine (s : State) (v : Addr) : (s.setPc v).irqLine = s.irqLine := rfl
@[simp] theorem State.setPc_inputs (s : State) (v : Addr) : (s.setPc v).inputs = s.inputs := rfl
@[simp] theorem State.setPc_draws (s : State) (v : Addr) : (s.setPc v).draws = s.draws := rfl
@[simp] theorem State.setPc_cycles (s : State) (v : Addr) : (s.setPc v).cycles = s.cycles := rfl
@[simp] theorem State.setPc_cfg (s : State) (v : Addr) : (s.setPc v).cfg = s.cfg := rfl
@[simp] theorem State.setPc_classOf (s : State) (v : Addr) (addr : Addr) : (s.setPc v).classOf addr = s.classOf addr := rfl
@[simp] theorem State.setPc_cellOf (s : State) (v : Addr) (addr : Addr) : (s.setPc v).cellOf addr = s.cellOf addr := rfl
@[simp] theorem State.setPc_accessible (s : State) (v : Addr) (addr : Addr) : (s.setPc v).accessible addr = s.accessible addr := rfl
@[simp] theorem State.setPc_peek (s : State) (v : Addr) (addr : Addr) : (s.setPc v).peek addr = s.peek addr := rfl
@[simp] theorem State.setPc_checkAddress (s : State) (v : Addr) (addr : Addr) : (s.setPc v).checkAddress addr = s.checkAddress addr := rfl
@[simp] theorem State.setPc_read (s : State) (v : Addr) (addr : Addr) : (s.setPc v).read addr = s.read addr := rfl
@[simp] theorem State.setPc_stored (s : State) (v : Addr) (addr : Addr) (b : Byte) :
    (s.setPc v).stored addr b = s.stored addr b := rfl
@[simp] theorem State.setPc_poke (s : State) (v : Addr) (addr : Addr) (b : Byte) :
    (s.setPc v).poke addr b = (s.poke addr b).setPc v := rfl

@[simp] theorem State.setFlags_a (s : State) (f : Flags) : (s.setFlags f).a = s.a := rfl
@[simp] theorem State.setFlags_x (s : State) (f : Flags) : (s.setFlags f).x = s.x := rfl
@[simp] theorem State.setFlags_y (s : State) (f : Flags) : (s.setFlags f).y = s.y := rfl
@[simp] theorem State.setFlags_sp (s : State) (f : Flags) : (s.setFlags f).sp = s.sp := rfl
@[simp] theorem State.setFlags_pc (s : State) (f : Flags) : (s.setFlags f).pc = s.pc := rfl
@[simp] theorem State.setFlags_flags (s : State) (f : Flags) : (s.setFlags f).flags = f := rfl
@[simp] theorem State.setFlags_nmiPending (s : State) (f : Flags) : (s.setFlags f).nmiPending = s.nmiPending := rfl
@[simp] theorem State.setFlags_ipoll (s : State) (f : Flags) : (s.setFlags f).ipoll = s.ipoll := rfl
@[simp] theorem State.setFlags_mem (s : State) (f : Flags) : (s.setFlags f).mem = s.mem := rfl
@[simp] theorem State.setFlags_irqLine (s : State) (f : Flags) : (s.setFlags f).irqLine = s.irqLine := rfl
@[simp] theorem State.setFlags_inputs (s : State) (f : Flags) : (s.setFlags f).inputs = s.inputs := rfl
@[simp] theorem State.setFlags_draws (s : State) (f : Flags) : (s.setFlags f).draws = s.draws := rfl
@[simp] theorem State.setFlags_cycles (s : State) (f : Flags) : (s.setFlags f).cycles = s.cycles := rfl
@[simp] theorem State.setFlags_cfg (s : State) (f : Flags) : (s.setFlags f).cfg = s.cfg := rfl
@[simp] theorem State.setFlags_classOf (s : State) (f : Flags) (addr : Addr) : (s.setFlags f).classOf addr = s.classOf addr := rfl
@[simp] theorem State.setFlags_cellOf (s : State) (f : Flags) (addr : Addr) : (s.setFlags f).cellOf addr = s.cellOf addr := rfl
@[simp] theorem State.setFlags_accessible (s : State) (f : Flags) (addr : Addr) : (s.setFlags f).accessible addr = s.accessible addr := rfl
@[simp] theorem State.setFlags_peek (s : State) (f : Flags) (addr : Addr) : (s.setFlags f).peek addr = s.peek addr := rfl
@[simp] theorem State.setFlags_checkAddress (s : State) (f : Flags) (addr : Addr) : (s.setFlags f).checkAddress addr = s.checkAddress addr := rfl
@[simp] theorem State.setFlags_read (s : State) (f : Flags) (addr : Addr) : (s.setFlags f).read addr = s.read addr := rfl
@[simp] theorem State.setFlags_stored (s : State) (f : Flags) (addr : Addr) (b : Byte) :
    (s.setFlags f).stored addr b = s.stored addr b := rfl
@[simp] theorem State.setFlags_poke (s : State) (f : Flags) (addr : Addr) (b : Byte) :
    (s.setFlags f).poke addr b = (s.poke addr b).setFlags f := rfl

@[simp] theorem State.setIpoll_a (s : State) (p : Bool) : (s.setIpoll p).a = s.a := rfl
@[simp] theorem State.setIpoll_x (s : State) (p : Bool) : (s.setIpoll p).x = s.x := rfl
@[simp] theorem State.setIpoll_y (s : State) (p : Bool) : (s.setIpoll p).y = s.y := rfl
@[simp] theorem State.setIpoll_sp (s : State) (p : Bool) : (s.setIpoll p).sp = s.sp := rfl
@[simp] theorem State.setIpoll_pc (s : State) (p : Bool) : (s.setIpoll p).pc = s.pc := rfl
@[simp] theorem State.setIpoll_flags (s : State) (p : Bool) : (s.setIpoll p).flags = s.flags := rfl
@[simp] theorem State.setIpoll_nmiPending (s : State) (p : Bool) : (s.setIpoll p).nmiPending = s.nmiPending := rfl
@[simp] theorem State.setIpoll_ipoll (s : State) (p : Bool) : (s.setIpoll p).ipoll = p := rfl
@[simp] theorem State.setIpoll_mem (s : State) (p : Bool) : (s.setIpoll p).mem = s.mem := rfl
@[simp] theorem State.setIpoll_irqLine (s : State) (p : Bool) : (s.setIpoll p).irqLine = s.irqLine := rfl
@[simp] theorem State.setIpoll_inputs (s : State) (p : Bool) : (s.setIpoll p).inputs = s.inputs := rfl
@[simp] theorem State.setIpoll_draws (s : State) (p : Bool) : (s.setIpoll p).draws = s.draws := rfl
@[simp] theorem State.setIpoll_cycles (s : State) (p : Bool) : (s.setIpoll p).cycles = s.cycles := rfl
@[simp] theorem State.setIpoll_cfg (s : State) (p : Bool) : (s.setIpoll p).cfg = s.cfg := rfl
@[simp] theorem State.setIpoll_classOf (s : State) (p : Bool) (addr : Addr) : (s.setIpoll p).classOf addr = s.classOf addr := rfl
@[simp] theorem State.setIpoll_cellOf (s : State) (p : Bool) (addr : Addr) : (s.setIpoll p).cellOf addr = s.cellOf addr := rfl
@[simp] theorem State.setIpoll_accessible (s : State) (p : Bool) (addr : Addr) : (s.setIpoll p).accessible addr = s.accessible addr := rfl
@[simp] theorem State.setIpoll_peek (s : State) (p : Bool) (addr : Addr) : (s.setIpoll p).peek addr = s.peek addr := rfl
@[simp] theorem State.setIpoll_checkAddress (s : State) (p : Bool) (addr : Addr) : (s.setIpoll p).checkAddress addr = s.checkAddress addr := rfl
@[simp] theorem State.setIpoll_read (s : State) (p : Bool) (addr : Addr) : (s.setIpoll p).read addr = s.read addr := rfl
@[simp] theorem State.setIpoll_stored (s : State) (p : Bool) (addr : Addr) (b : Byte) :
    (s.setIpoll p).stored addr b = s.stored addr b := rfl
@[simp] theorem State.setIpoll_poke (s : State) (p : Bool) (addr : Addr) (b : Byte) :
    (s.setIpoll p).poke addr b = (s.poke addr b).setIpoll p := rfl

@[simp] theorem State.setNmiPending_a (s : State) (p : Bool) : (s.setNmiPending p).a = s.a := rfl
@[simp] theorem State.setNmiPending_x (s : State) (p : Bool) : (s.setNmiPending p).x = s.x := rfl
@[simp] theorem State.setNmiPending_y (s : State) (p : Bool) : (s.setNmiPending p).y = s.y := rfl
@[simp] theorem State.setNmiPending_sp (s : State) (p : Bool) : (s.setNmiPending p).sp = s.sp := rfl
@[simp] theorem State.setNmiPending_pc (s : State) (p : Bool) : (s.setNmiPending p).pc = s.pc := rfl
@[simp] theorem State.setNmiPending_flags (s : State) (p : Bool) : (s.setNmiPending p).flags = s.flags := rfl
@[simp] theorem State.setNmiPending_nmiPending (s : State) (p : Bool) : (s.setNmiPending p).nmiPending = p := rfl
@[simp] theorem State.setNmiPending_ipoll (s : State) (p : Bool) : (s.setNmiPending p).ipoll = s.ipoll := rfl
@[simp] theorem State.setNmiPending_mem (s : State) (p : Bool) : (s.setNmiPending p).mem = s.mem := rfl
@[simp] theorem State.setNmiPending_irqLine (s : State) (p : Bool) : (s.setNmiPending p).irqLine = s.irqLine := rfl
@[simp] theorem State.setNmiPending_inputs (s : State) (p : Bool) : (s.setNmiPending p).inputs = s.inputs := rfl
@[simp] theorem State.setNmiPending_draws (s : State) (p : Bool) : (s.setNmiPending p).draws = s.draws := rfl
@[simp] theorem State.setNmiPending_cycles (s : State) (p : Bool) : (s.setNmiPending p).cycles = s.cycles := rfl
@[simp] theorem State.setNmiPending_cfg (s : State) (p : Bool) : (s.setNmiPending p).cfg = s.cfg := rfl
@[simp] theorem State.setNmiPending_classOf (s : State) (p : Bool) (addr : Addr) : (s.setNmiPending p).classOf addr = s.classOf addr := rfl
@[simp] theorem State.setNmiPending_cellOf (s : State) (p : Bool) (addr : Addr) : (s.setNmiPending p).cellOf addr = s.cellOf addr := rfl
@[simp] theorem State.setNmiPending_accessible (s : State) (p : Bool) (addr : Addr) : (s.setNmiPending p).accessible addr = s.accessible addr := rfl
@[simp] theorem State.setNmiPending_peek (s : State) (p : Bool) (addr : Addr) : (s.setNmiPending p).peek addr = s.peek addr := rfl
@[simp] theorem State.setNmiPending_checkAddress (s : State) (p : Bool) (addr : Addr) : (s.setNmiPending p).checkAddress addr = s.checkAddress addr := rfl
@[simp] theorem State.setNmiPending_read (s : State) (p : Bool) (addr : Addr) : (s.setNmiPending p).read addr = s.read addr := rfl
@[simp] theorem State.setNmiPending_stored (s : State) (p : Bool) (addr : Addr) (b : Byte) :
    (s.setNmiPending p).stored addr b = s.stored addr b := rfl
@[simp] theorem State.setNmiPending_poke (s : State) (p : Bool) (addr : Addr) (b : Byte) :
    (s.setNmiPending p).poke addr b = (s.poke addr b).setNmiPending p := rfl

@[simp] theorem State.tick_a (s : State) (n : Nat) : (s.tick n).a = s.a := rfl
@[simp] theorem State.tick_x (s : State) (n : Nat) : (s.tick n).x = s.x := rfl
@[simp] theorem State.tick_y (s : State) (n : Nat) : (s.tick n).y = s.y := rfl
@[simp] theorem State.tick_sp (s : State) (n : Nat) : (s.tick n).sp = s.sp := rfl
@[simp] theorem State.tick_pc (s : State) (n : Nat) : (s.tick n).pc = s.pc := rfl
@[simp] theorem State.tick_flags (s : State) (n : Nat) : (s.tick n).flags = s.flags := rfl
@[simp] theorem State.tick_nmiPending (s : State) (n : Nat) : (s.tick n).nmiPending = s.nmiPending := rfl
@[simp] theorem State.tick_ipoll (s : State) (n : Nat) : (s.tick n).ipoll = s.ipoll := rfl
@[simp] theorem State.tick_mem (s : State) (n : Nat) : (s.tick n).mem = s.mem := rfl
@[simp] theorem State.tick_irqLine (s : State) (n : Nat) : (s.tick n).irqLine = s.irqLine := rfl
@[simp] theorem State.tick_inputs (s : State) (n : Nat) : (s.tick n).inputs = s.inputs := rfl
@[simp] theorem State.tick_draws (s : State) (n : Nat) : (s.tick n).draws = s.draws := rfl
@[simp] theorem State.tick_cycles (s : State) (n : Nat) : (s.tick n).cycles = s.cycles + n := rfl
@[simp] theorem State.tick_cfg (s : State) (n : Nat) : (s.tick n).cfg = s.cfg := rfl
@[simp] theorem State.tick_classOf (s : State) (n : Nat) (addr : Addr) : (s.tick n).classOf addr = s.classOf addr := rfl
@[simp] theorem State.tick_cellOf (s : State) (n : Nat) (addr : Addr) : (s.tick n).cellOf addr = s.cellOf addr := rfl
@[simp] theorem State.tick_accessible (s : State) (n : Nat) (addr : Addr) : (s.tick n).accessible addr = s.accessible addr := rfl
@[simp] theorem State.tick_peek (s : State) (n : Nat) (addr : Addr) : (s.tick n).peek addr = s.peek addr := rfl
@[simp] theorem State.tick_checkAddress (s : State) (n : Nat) (addr : Addr) : (s.tick n).checkAddress addr = s.checkAddress addr := rfl
@[simp] theorem State.tick_read (s : State) (n : Nat) (addr : Addr) : (s.tick n).read addr = s.read addr := rfl
@[simp] theorem State.tick_stored (s : State) (n : Nat) (addr : Addr) (b : Byte) :
    (s.tick n).stored addr b = s.stored addr b := rfl
@[simp] theorem State.tick_poke (s : State) (n : Nat) (addr : Addr) (b : Byte) :
    (s.tick n).poke addr b = (s.poke addr b).tick n := rfl

@[simp] theorem State.endAt_a (s : State) (target : Addr) (cyc : Nat) : (s.endAt target cyc).a = s.a := rfl
@[simp] theorem State.endAt_x (s : State) (target : Addr) (cyc : Nat) : (s.endAt target cyc).x = s.x := rfl
@[simp] theorem State.endAt_y (s : State) (target : Addr) (cyc : Nat) : (s.endAt target cyc).y = s.y := rfl
@[simp] theorem State.endAt_sp (s : State) (target : Addr) (cyc : Nat) : (s.endAt target cyc).sp = s.sp := rfl
@[simp] theorem State.endAt_pc (s : State) (target : Addr) (cyc : Nat) : (s.endAt target cyc).pc = target := rfl
@[simp] theorem State.endAt_flags (s : State) (target : Addr) (cyc : Nat) : (s.endAt target cyc).flags = s.flags := rfl
@[simp] theorem State.endAt_nmiPending (s : State) (target : Addr) (cyc : Nat) : (s.endAt target cyc).nmiPending = s.nmiPending := rfl
@[simp] theorem State.endAt_ipoll (s : State) (target : Addr) (cyc : Nat) : (s.endAt target cyc).ipoll = s.flags.i := rfl
@[simp] theorem State.endAt_mem (s : State) (target : Addr) (cyc : Nat) : (s.endAt target cyc).mem = s.mem := rfl
@[simp] theorem State.endAt_irqLine (s : State) (target : Addr) (cyc : Nat) : (s.endAt target cyc).irqLine = s.irqLine := rfl
@[simp] theorem State.endAt_inputs (s : State) (target : Addr) (cyc : Nat) : (s.endAt target cyc).inputs = s.inputs := rfl
@[simp] theorem State.endAt_draws (s : State) (target : Addr) (cyc : Nat) : (s.endAt target cyc).draws = s.draws := rfl
@[simp] theorem State.endAt_cycles (s : State) (target : Addr) (cyc : Nat) : (s.endAt target cyc).cycles = s.cycles + cyc := rfl
@[simp] theorem State.endAt_cfg (s : State) (target : Addr) (cyc : Nat) : (s.endAt target cyc).cfg = s.cfg := rfl
@[simp] theorem State.endAt_read (s : State) (target : Addr) (cyc : Nat) (addr : Addr) : (s.endAt target cyc).read addr = s.read addr := rfl

@[simp] theorem State.advance_a (s : State) (len cyc : Nat) : (s.advance len cyc).a = s.a := rfl
@[simp] theorem State.advance_x (s : State) (len cyc : Nat) : (s.advance len cyc).x = s.x := rfl
@[simp] theorem State.advance_y (s : State) (len cyc : Nat) : (s.advance len cyc).y = s.y := rfl
@[simp] theorem State.advance_sp (s : State) (len cyc : Nat) : (s.advance len cyc).sp = s.sp := rfl
@[simp] theorem State.advance_pc (s : State) (len cyc : Nat) : (s.advance len cyc).pc = s.pc + BitVec.ofNat 16 len := rfl
@[simp] theorem State.advance_flags (s : State) (len cyc : Nat) : (s.advance len cyc).flags = s.flags := rfl
@[simp] theorem State.advance_nmiPending (s : State) (len cyc : Nat) : (s.advance len cyc).nmiPending = s.nmiPending := rfl
@[simp] theorem State.advance_ipoll (s : State) (len cyc : Nat) : (s.advance len cyc).ipoll = s.flags.i := rfl
@[simp] theorem State.advance_mem (s : State) (len cyc : Nat) : (s.advance len cyc).mem = s.mem := rfl
@[simp] theorem State.advance_irqLine (s : State) (len cyc : Nat) : (s.advance len cyc).irqLine = s.irqLine := rfl
@[simp] theorem State.advance_inputs (s : State) (len cyc : Nat) : (s.advance len cyc).inputs = s.inputs := rfl
@[simp] theorem State.advance_draws (s : State) (len cyc : Nat) : (s.advance len cyc).draws = s.draws := rfl
@[simp] theorem State.advance_cycles (s : State) (len cyc : Nat) : (s.advance len cyc).cycles = s.cycles + cyc := rfl
@[simp] theorem State.advance_cfg (s : State) (len cyc : Nat) : (s.advance len cyc).cfg = s.cfg := rfl
@[simp] theorem State.advance_read (s : State) (len cyc : Nat) (addr : Addr) : (s.advance len cyc).read addr = s.read addr := rfl

@[simp] theorem State.advanceLate_a (s : State) (iOld : Bool) (len cyc : Nat) : (s.advanceLate iOld len cyc).a = s.a := rfl
@[simp] theorem State.advanceLate_x (s : State) (iOld : Bool) (len cyc : Nat) : (s.advanceLate iOld len cyc).x = s.x := rfl
@[simp] theorem State.advanceLate_y (s : State) (iOld : Bool) (len cyc : Nat) : (s.advanceLate iOld len cyc).y = s.y := rfl
@[simp] theorem State.advanceLate_sp (s : State) (iOld : Bool) (len cyc : Nat) : (s.advanceLate iOld len cyc).sp = s.sp := rfl
@[simp] theorem State.advanceLate_pc (s : State) (iOld : Bool) (len cyc : Nat) : (s.advanceLate iOld len cyc).pc = s.pc + BitVec.ofNat 16 len := rfl
@[simp] theorem State.advanceLate_flags (s : State) (iOld : Bool) (len cyc : Nat) : (s.advanceLate iOld len cyc).flags = s.flags := rfl
@[simp] theorem State.advanceLate_nmiPending (s : State) (iOld : Bool) (len cyc : Nat) : (s.advanceLate iOld len cyc).nmiPending = s.nmiPending := rfl
@[simp] theorem State.advanceLate_ipoll (s : State) (iOld : Bool) (len cyc : Nat) : (s.advanceLate iOld len cyc).ipoll = iOld := rfl
@[simp] theorem State.advanceLate_mem (s : State) (iOld : Bool) (len cyc : Nat) : (s.advanceLate iOld len cyc).mem = s.mem := rfl
@[simp] theorem State.advanceLate_irqLine (s : State) (iOld : Bool) (len cyc : Nat) : (s.advanceLate iOld len cyc).irqLine = s.irqLine := rfl
@[simp] theorem State.advanceLate_inputs (s : State) (iOld : Bool) (len cyc : Nat) : (s.advanceLate iOld len cyc).inputs = s.inputs := rfl
@[simp] theorem State.advanceLate_draws (s : State) (iOld : Bool) (len cyc : Nat) : (s.advanceLate iOld len cyc).draws = s.draws := rfl
@[simp] theorem State.advanceLate_cycles (s : State) (iOld : Bool) (len cyc : Nat) : (s.advanceLate iOld len cyc).cycles = s.cycles + cyc := rfl
@[simp] theorem State.advanceLate_cfg (s : State) (iOld : Bool) (len cyc : Nat) : (s.advanceLate iOld len cyc).cfg = s.cfg := rfl
@[simp] theorem State.advanceLate_read (s : State) (iOld : Bool) (len cyc : Nat) (addr : Addr) : (s.advanceLate iOld len cyc).read addr = s.read addr := rfl

end Sys2Proof.Machine
end

