-- ==== Sys2Proof/Laws/Ops.lean ====
section
/-! SUPPORT. One lemma for each shared operation of Machine/Ops.lean that says when it gives a result and what the result is, so
that a proof cites it and never unfolds the operation. -/

namespace Sys2Proof.Machine

/-! ### The answer of a step -/

@[simp] theorem outcome_eq_next (x : Access State) (t : State) : outcome x = .next t ↔ x = .ok t := by
  cases x with
  | ok s => simp [outcome]
  | error r => simp [outcome]

@[simp] theorem outcome_ok (t : State) : outcome (.ok t) = .next t := rfl

@[simp] theorem outcome_refused (r : Refusal) : outcome (.error r) = .refused r := rfl

/-- A computation in two parts gives a result exactly when both parts do. -/
theorem access_bind_eq_ok {α β : Type} (x : Access α) (f : α → Access β) (b : β) :
    (x >>= f) = .ok b ↔ ∃ a, x = .ok a ∧ f a = .ok b := by
  cases x <;> simp [bind, Except.bind]

/-! ### Addresses -/

theorem State.accessible_eq_true (s : State) (addr : Addr) :
    s.accessible addr = true ↔ s.classOf addr = .ram ∨ s.classOf addr = .rom := by
  unfold State.accessible
  cases s.classOf addr <;> simp

/-- The check passes exactly on `ram` and `rom` addresses. -/
theorem State.checkAddress_eq_ok (s : State) (addr : Addr) (u : Unit) :
    s.checkAddress addr = .ok u ↔ s.accessible addr = true := by
  unfold State.checkAddress State.accessible
  cases s.classOf addr <;> simp

theorem State.cellOf_lt (s : State) (addr : Addr) : s.cellOf addr < 65536 := by
  unfold State.cellOf
  cases regionOf s.cfg addr with
  | none => exact addr.isLt
  | some r => exact Nat.mod_lt _ (by decide)

theorem State.classOf_congr {s t : State} (h : t.cfg = s.cfg) (addr : Addr) : t.classOf addr = s.classOf addr := by
  unfold State.classOf
  rw [h]

theorem State.cellOf_congr {s t : State} (h : t.cfg = s.cfg) (addr : Addr) : t.cellOf addr = s.cellOf addr := by
  unfold State.cellOf
  rw [h]

theorem State.accessible_congr {s t : State} (h : t.cfg = s.cfg) (addr : Addr) :
    t.accessible addr = s.accessible addr := by
  unfold State.accessible
  rw [State.classOf_congr h]

theorem State.peek_congr {s t : State} (h : t.cfg = s.cfg) (hm : t.mem = s.mem) (addr : Addr) :
    t.peek addr = s.peek addr := by
  unfold State.peek
  rw [State.cellOf_congr h, hm]

/-! ### Reads -/

/-- A read gives a byte exactly at an accessible address, and then the byte of the address's cell. -/
theorem State.read_eq_ok (s : State) (addr : Addr) (v : Byte) :
    s.read addr = .ok v ↔ s.accessible addr = true ∧ v = s.peek addr := by
  unfold State.read
  rw [access_bind_eq_ok]
  simp only [State.checkAddress_eq_ok, pure, Except.pure, Except.ok.injEq]
  exact ⟨fun ⟨_, h, e⟩ => ⟨h, e.symm⟩, fun ⟨h, e⟩ => ⟨(), h, e.symm⟩⟩

/-- Reads at an address agree in two states with the same parameters and the same byte there. -/
theorem State.read_congr {s t : State} (h : t.cfg = s.cfg) (addr : Addr) (hp : t.peek addr = s.peek addr) :
    t.read addr = s.read addr := by
  unfold State.read State.checkAddress
  rw [State.classOf_congr h, hp]

theorem State.readPair_eq_ok (s : State) (p q w : Addr) :
    s.readPair p q = .ok w ↔
      s.accessible p = true ∧ s.accessible q = true ∧ w = wordOf (s.peek q) (s.peek p) := by
  unfold State.readPair
  simp only [access_bind_eq_ok, State.read_eq_ok, pure, Except.pure]
  constructor
  · rintro ⟨l, ⟨hl, rfl⟩, h, ⟨hh, rfl⟩, hw⟩
    exact ⟨hl, hh, by simpa using hw.symm⟩
  · rintro ⟨hl, hh, rfl⟩
    exact ⟨_, ⟨hl, rfl⟩, _, ⟨hh, rfl⟩, rfl⟩

theorem State.readVector_eq_ok (s : State) (p w : Addr) :
    s.readVector p = .ok w ↔
      s.accessible p = true ∧ s.accessible (p + 1) = true ∧ w = wordOf (s.peek (p + 1)) (s.peek p) :=
  s.readPair_eq_ok p (p + 1) w

/-! ### Writes -/

/-- What storing a byte can do: memory changes in one cell, at a `ram` address; nothing else changes. -/
theorem State.stored_eq (s : State) (addr : Addr) (v : Byte) :
    (s.classOf addr = .ram ∧ s.stored addr v = s.mem.write (s.cellOf addr) v) ∨
      (s.classOf addr ≠ .ram ∧ s.stored addr v = s.mem) := by
  unfold State.stored
  cases s.classOf addr <;> simp

@[simp] theorem State.poke_a (s : State) (addr : Addr) (v : Byte) : (s.poke addr v).a = s.a := rfl
@[simp] theorem State.poke_x (s : State) (addr : Addr) (v : Byte) : (s.poke addr v).x = s.x := rfl
@[simp] theorem State.poke_y (s : State) (addr : Addr) (v : Byte) : (s.poke addr v).y = s.y := rfl
@[simp] theorem State.poke_sp (s : State) (addr : Addr) (v : Byte) : (s.poke addr v).sp = s.sp := rfl
@[simp] theorem State.poke_pc (s : State) (addr : Addr) (v : Byte) : (s.poke addr v).pc = s.pc := rfl
@[simp] theorem State.poke_flags (s : State) (addr : Addr) (v : Byte) : (s.poke addr v).flags = s.flags := rfl
@[simp] theorem State.poke_nmiPending (s : State) (addr : Addr) (v : Byte) : (s.poke addr v).nmiPending = s.nmiPending := rfl
@[simp] theorem State.poke_ipoll (s : State) (addr : Addr) (v : Byte) : (s.poke addr v).ipoll = s.ipoll := rfl
@[simp] theorem State.poke_irqLine (s : State) (addr : Addr) (v : Byte) : (s.poke addr v).irqLine = s.irqLine := rfl
@[simp] theorem State.poke_inputs (s : State) (addr : Addr) (v : Byte) : (s.poke addr v).inputs = s.inputs := rfl
@[simp] theorem State.poke_draws (s : State) (addr : Addr) (v : Byte) : (s.poke addr v).draws = s.draws := rfl
@[simp] theorem State.poke_cycles (s : State) (addr : Addr) (v : Byte) : (s.poke addr v).cycles = s.cycles := rfl
@[simp] theorem State.poke_cfg (s : State) (addr : Addr) (v : Byte) : (s.poke addr v).cfg = s.cfg := rfl
@[simp] theorem State.poke_mem (s : State) (addr : Addr) (v : Byte) : (s.poke addr v).mem = s.stored addr v := rfl
@[simp] theorem State.poke_classOf (s : State) (addr : Addr) (v : Byte) (b : Addr) : (s.poke addr v).classOf b = s.classOf b := rfl
@[simp] theorem State.poke_cellOf (s : State) (addr : Addr) (v : Byte) (b : Addr) : (s.poke addr v).cellOf b = s.cellOf b := rfl
@[simp] theorem State.poke_accessible (s : State) (addr : Addr) (v : Byte) (b : Addr) : (s.poke addr v).accessible b = s.accessible b := rfl

theorem State.stored_of_ram (s : State) (addr : Addr) (v : Byte) (h : s.classOf addr = .ram) :
    s.stored addr v = s.mem.write (s.cellOf addr) v := by
  rcases s.stored_eq addr v with ⟨_, e⟩ | ⟨n, _⟩
  · exact e
  · exact absurd h n

theorem State.stored_of_not_ram (s : State) (addr : Addr) (v : Byte) (h : s.classOf addr ≠ .ram) :
    s.stored addr v = s.mem := by
  rcases s.stored_eq addr v with ⟨r, _⟩ | ⟨_, e⟩
  · exact absurd r h
  · exact e

/-- A `ram` address reads as the byte stored at it. -/
theorem State.peek_poke_same (s : State) (addr : Addr) (v : Byte) (h : s.classOf addr = .ram) :
    (s.poke addr v).peek addr = v := by
  unfold State.peek
  rw [State.poke_mem, s.stored_of_ram addr v h]
  exact Memory.read_write_same _ _ _

/-- An address that reaches another cell reads as before a store. -/
theorem State.peek_poke_other (s : State) (addr b : Addr) (v : Byte) (h : s.cellOf b ≠ s.cellOf addr) :
    (s.poke addr v).peek b = s.peek b := by
  unfold State.peek
  rw [State.poke_mem, State.poke_cellOf]
  rcases s.stored_eq addr v with ⟨_, e⟩ | ⟨_, e⟩
  · rw [e, Memory.read_write_other _ _ h]
  · rw [e]

theorem State.stored_wf (s : State) (addr : Addr) (v : Byte) (h : s.mem.wf = true) :
    (s.stored addr v).wf = true := by
  rcases s.stored_eq addr v with ⟨_, e⟩ | ⟨_, e⟩
  · rw [e]
    exact Memory.wf_write _ _ _ h (s.cellOf_lt addr)
  · rw [e]
    exact h

/-- A write gives a state exactly at an accessible address, and then the state with the byte stored. -/
theorem State.write_eq_ok (s t : State) (addr : Addr) (v : Byte) :
    s.write addr v = .ok t ↔ s.accessible addr = true ∧ t = s.poke addr v := by
  unfold State.write
  rw [access_bind_eq_ok]
  simp only [State.checkAddress_eq_ok, pure, Except.pure, Except.ok.injEq]
  exact ⟨fun ⟨_, h, e⟩ => ⟨h, e.symm⟩, fun ⟨h, e⟩ => ⟨(), h, e.symm⟩⟩

/-! ### The stack -/

theorem State.push_eq_ok (s t : State) (v : Byte) :
    s.push v = .ok t ↔
      s.accessible (stackAddr s.sp) = true ∧ t = (s.poke (stackAddr s.sp) v).setSp (s.sp - 1) := by
  unfold State.push
  simp only [access_bind_eq_ok, State.write_eq_ok, pure, Except.pure]
  constructor
  · rintro ⟨u, ⟨h, rfl⟩, e⟩
    exact ⟨h, by simpa using e.symm⟩
  · rintro ⟨h, rfl⟩
    exact ⟨_, ⟨h, rfl⟩, rfl⟩

theorem State.pull_eq_ok (s t : State) (v : Byte) :
    s.pull = .ok (v, t) ↔
      s.accessible (stackAddr (s.sp + 1)) = true ∧ v = s.peek (stackAddr (s.sp + 1)) ∧ t = s.setSp (s.sp + 1) := by
  unfold State.pull
  simp only [access_bind_eq_ok, State.read_eq_ok, pure, Except.pure]
  constructor
  · rintro ⟨u, ⟨h, rfl⟩, e⟩
    obtain ⟨rfl, rfl⟩ : _ ∧ _ := by simpa using e
    exact ⟨h, rfl, rfl⟩
  · rintro ⟨h, rfl, rfl⟩
    exact ⟨_, ⟨h, rfl⟩, rfl⟩

theorem State.pushWord_eq_ok (s t : State) (w : Addr) :
    s.pushWord w = .ok t ↔
      s.accessible (stackAddr s.sp) = true ∧ s.accessible (stackAddr (s.sp - 1)) = true ∧
        t = ((s.poke (stackAddr s.sp) (hiByte w)).poke (stackAddr (s.sp - 1)) (loByte w)).setSp (s.sp - 1 - 1) := by
  unfold State.pushWord
  simp only [access_bind_eq_ok, State.push_eq_ok]
  constructor
  · rintro ⟨u, ⟨h, rfl⟩, h2, rfl⟩
    exact ⟨h, h2, rfl⟩
  · rintro ⟨h, h2, rfl⟩
    exact ⟨_, ⟨h, rfl⟩, h2, rfl⟩

theorem State.pullWord_eq_ok (s t : State) (w : Addr) :
    s.pullWord = .ok (w, t) ↔
      s.accessible (stackAddr (s.sp + 1)) = true ∧ s.accessible (stackAddr (s.sp + 1 + 1)) = true ∧
        w = wordOf (s.peek (stackAddr (s.sp + 1 + 1))) (s.peek (stackAddr (s.sp + 1))) ∧
          t = s.setSp (s.sp + 1 + 1) := by
  unfold State.pullWord
  simp only [access_bind_eq_ok]
  constructor
  · rintro ⟨⟨l, u⟩, h1, ⟨h, r⟩, h2, e⟩
    obtain ⟨a1, rfl, rfl⟩ := (s.pull_eq_ok u l).1 h1
    obtain ⟨a2, rfl, rfl⟩ := (State.pull_eq_ok _ r h).1 h2
    obtain ⟨rfl, rfl⟩ : _ ∧ _ := by simpa [pure, Except.pure] using e
    exact ⟨a1, a2, rfl, rfl⟩
  · rintro ⟨a1, a2, rfl, rfl⟩
    exact ⟨(_, _), (s.pull_eq_ok _ _).2 ⟨a1, rfl, rfl⟩, (_, _), (State.pull_eq_ok _ _ _).2 ⟨a2, rfl, rfl⟩, rfl⟩

/-! ### Exceptions -/

/-- The state with an exception's three bytes stored and no register changed. -/
def State.exceptionFrame (s : State) (ret : Addr) (brk : Bool) : State :=
  ((s.poke (stackAddr s.sp) (hiByte ret)).poke (stackAddr (s.sp - 1)) (loByte ret)).poke (stackAddr (s.sp - 1 - 1))
    (s.flags.toByte brk)

/-- What taking an exception does: the three stack addresses and the two vector addresses are accessible, and the result is the
state with the frame stored, SP 3 lower, I and `Ipoll` set, and PC from the vector. -/
theorem State.takeException_eq_ok (s t : State) (ret : Addr) (brk : Bool) (vector : Addr) :
    s.takeException ret brk vector = .ok t ↔
      s.accessible (stackAddr s.sp) = true ∧ s.accessible (stackAddr (s.sp - 1)) = true ∧
        s.accessible (stackAddr (s.sp - 1 - 1)) = true ∧ s.accessible vector = true ∧
          s.accessible (vector + 1) = true ∧
            t = { s.exceptionFrame ret brk with
                  sp := s.sp - 1 - 1 - 1
                  flags := { s.flags with i := true }
                  ipoll := true
                  pc := wordOf ((s.exceptionFrame ret brk).peek (vector + 1)) ((s.exceptionFrame ret brk).peek vector)
                  cycles := s.cycles + 7 } := by
  unfold State.takeException
  simp only [access_bind_eq_ok, State.pushWord_eq_ok, State.push_eq_ok, State.readVector_eq_ok, pure, Except.pure]
  constructor
  · rintro ⟨u, ⟨h1, h2, rfl⟩, w, ⟨h3, rfl⟩, pc, ⟨h4, h5, rfl⟩, e⟩
    simp only [State.setSp_accessible, State.poke_accessible, State.setIpoll_accessible, State.setFlags_accessible,
      State.setSp_sp] at h3 h4 h5
    refine ⟨h1, h2, h3, h4, h5, (Except.ok.inj e).symm.trans ?_⟩
    simp only [State.setSp_poke, State.setIpoll_peek, State.setFlags_peek, State.setSp_peek, State.setSp_sp,
      State.exceptionFrame]
    apply State.ext <;> simp
  · rintro ⟨h1, h2, h3, h4, h5, rfl⟩
    refine ⟨_, ⟨h1, h2, rfl⟩, _, ⟨by simpa only [State.setSp_accessible, State.poke_accessible, State.setSp_sp] using h3, rfl⟩,
      _, ⟨by simpa only [State.setSp_accessible, State.poke_accessible, State.setIpoll_accessible,
        State.setFlags_accessible] using h4, by simpa only [State.setSp_accessible, State.poke_accessible,
        State.setIpoll_accessible, State.setFlags_accessible] using h5, rfl⟩, ?_⟩
    refine congrArg Except.ok ?_
    simp only [State.setSp_poke, State.setIpoll_peek, State.setFlags_peek, State.setSp_peek, State.setSp_sp,
      State.exceptionFrame]
    apply State.ext <;> simp

/-- What returning from an exception does: the three pulled bytes are accessible, and they are the flags and PC. -/
theorem State.returnFromException_eq_ok (s t : State) :
    s.returnFromException = .ok t ↔
      s.accessible (stackAddr (s.sp + 1)) = true ∧ s.accessible (stackAddr (s.sp + 1 + 1)) = true ∧
        s.accessible (stackAddr (s.sp + 1 + 1 + 1)) = true ∧
          t = { s with
                sp := s.sp + 1 + 1 + 1
                flags := Flags.ofByte (s.peek (stackAddr (s.sp + 1)))
                ipoll := (Flags.ofByte (s.peek (stackAddr (s.sp + 1)))).i
                pc := wordOf (s.peek (stackAddr (s.sp + 1 + 1 + 1))) (s.peek (stackAddr (s.sp + 1 + 1)))
                cycles := s.cycles + 6 } := by
  unfold State.returnFromException
  simp only [access_bind_eq_ok]
  constructor
  · rintro ⟨⟨p, u⟩, h1, ⟨w, r⟩, h2, e⟩
    obtain ⟨a1, rfl, rfl⟩ := (s.pull_eq_ok u p).1 h1
    obtain ⟨a2, a3, rfl, rfl⟩ := (State.pullWord_eq_ok _ r w).1 h2
    simp only [State.setFlags_accessible, State.setSp_accessible, State.setFlags_sp, State.setSp_sp] at a2 a3
    refine ⟨a1, a2, a3, (Except.ok.inj e).symm.trans ?_⟩
    simp only [State.setFlags_peek, State.setSp_peek, State.setFlags_sp, State.setSp_sp]
    rfl
  · rintro ⟨a1, a2, a3, rfl⟩
    refine ⟨(s.peek (stackAddr (s.sp + 1)), s.setSp (s.sp + 1)), (s.pull_eq_ok _ _).2 ⟨a1, rfl, rfl⟩,
      (wordOf (s.peek (stackAddr (s.sp + 1 + 1 + 1))) (s.peek (stackAddr (s.sp + 1 + 1))), _),
      (State.pullWord_eq_ok _ _ _).2 ⟨?_, ?_, ?_, rfl⟩, ?_⟩
    · simpa only [State.setFlags_accessible, State.setSp_accessible, State.setFlags_sp, State.setSp_sp] using a2
    · simpa only [State.setFlags_accessible, State.setSp_accessible, State.setFlags_sp, State.setSp_sp] using a3
    · simp only [State.setFlags_peek, State.setSp_peek, State.setFlags_sp, State.setSp_sp]
    · simp only [State.setFlags_sp, State.setSp_sp]
      rfl

end Sys2Proof.Machine
end

