-- ==== Sys2Proof/Laws/Boundary.lean ====
section
/-! SUPPORT. What happens at a boundary and what a step is, said once. -/

namespace Sys2Proof.Machine

theorem State.sampled_nil (s : State) (h : s.inputs = []) : s.sampled = s := by
  unfold State.sampled
  rw [h]

theorem State.sampled_cons (s : State) (b : Boundary) (rest : List Boundary) (h : s.inputs = b :: rest) :
    s.sampled = { s with inputs := rest, irqLine := b.irqLine, nmiPending := s.nmiPending || b.nmiEdge } := by
  unfold State.sampled
  rw [h]

@[simp] theorem State.sampled_a (s : State) : s.sampled.a = s.a := by
  unfold State.sampled
  cases s.inputs <;> rfl
@[simp] theorem State.sampled_x (s : State) : s.sampled.x = s.x := by
  unfold State.sampled
  cases s.inputs <;> rfl
@[simp] theorem State.sampled_y (s : State) : s.sampled.y = s.y := by
  unfold State.sampled
  cases s.inputs <;> rfl
@[simp] theorem State.sampled_sp (s : State) : s.sampled.sp = s.sp := by
  unfold State.sampled
  cases s.inputs <;> rfl
@[simp] theorem State.sampled_pc (s : State) : s.sampled.pc = s.pc := by
  unfold State.sampled
  cases s.inputs <;> rfl
@[simp] theorem State.sampled_flags (s : State) : s.sampled.flags = s.flags := by
  unfold State.sampled
  cases s.inputs <;> rfl
@[simp] theorem State.sampled_ipoll (s : State) : s.sampled.ipoll = s.ipoll := by
  unfold State.sampled
  cases s.inputs <;> rfl
@[simp] theorem State.sampled_mem (s : State) : s.sampled.mem = s.mem := by
  unfold State.sampled
  cases s.inputs <;> rfl
@[simp] theorem State.sampled_draws (s : State) : s.sampled.draws = s.draws := by
  unfold State.sampled
  cases s.inputs <;> rfl
@[simp] theorem State.sampled_cycles (s : State) : s.sampled.cycles = s.cycles := by
  unfold State.sampled
  cases s.inputs <;> rfl
@[simp] theorem State.sampled_cfg (s : State) : s.sampled.cfg = s.cfg := by
  unfold State.sampled
  cases s.inputs <;> rfl
@[simp] theorem State.sampled_classOf (s : State) (addr : Addr) : s.sampled.classOf addr = s.classOf addr :=
  State.classOf_congr s.sampled_cfg addr
@[simp] theorem State.sampled_cellOf (s : State) (addr : Addr) : s.sampled.cellOf addr = s.cellOf addr :=
  State.cellOf_congr s.sampled_cfg addr
@[simp] theorem State.sampled_accessible (s : State) (addr : Addr) : s.sampled.accessible addr = s.accessible addr :=
  State.accessible_congr s.sampled_cfg addr
@[simp] theorem State.sampled_peek (s : State) (addr : Addr) : s.sampled.peek addr = s.peek addr :=
  State.peek_congr s.sampled_cfg s.sampled_mem addr
@[simp] theorem State.resetRegisters_sp (s : State) (r : ResetInput) : (s.resetRegisters r).sp = s.sp := by
  cases r <;> rfl
@[simp] theorem State.resetRegisters_pc (s : State) (r : ResetInput) : (s.resetRegisters r).pc = s.pc := by
  cases r <;> rfl
@[simp] theorem State.resetRegisters_nmiPending (s : State) (r : ResetInput) : (s.resetRegisters r).nmiPending = s.nmiPending := by
  cases r <;> rfl
@[simp] theorem State.resetRegisters_ipoll (s : State) (r : ResetInput) : (s.resetRegisters r).ipoll = s.ipoll := by
  cases r <;> rfl
@[simp] theorem State.resetRegisters_mem (s : State) (r : ResetInput) : (s.resetRegisters r).mem = s.mem := by
  cases r <;> rfl
@[simp] theorem State.resetRegisters_irqLine (s : State) (r : ResetInput) : (s.resetRegisters r).irqLine = s.irqLine := by
  cases r <;> rfl
@[simp] theorem State.resetRegisters_inputs (s : State) (r : ResetInput) : (s.resetRegisters r).inputs = s.inputs := by
  cases r <;> rfl
@[simp] theorem State.resetRegisters_cycles (s : State) (r : ResetInput) : (s.resetRegisters r).cycles = s.cycles := by
  cases r <;> rfl
@[simp] theorem State.resetRegisters_cfg (s : State) (r : ResetInput) : (s.resetRegisters r).cfg = s.cfg := by
  cases r <;> rfl
@[simp] theorem State.resetRegisters_flags_i (s : State) (r : ResetInput) : (s.resetRegisters r).flags.i = true := by
  cases r <;> rfl
@[simp] theorem State.resetRegisters_classOf (s : State) (r : ResetInput) (addr : Addr) :
    (s.resetRegisters r).classOf addr = s.classOf addr := by
  cases r <;> rfl
@[simp] theorem State.resetRegisters_cellOf (s : State) (r : ResetInput) (addr : Addr) :
    (s.resetRegisters r).cellOf addr = s.cellOf addr := by
  cases r <;> rfl
@[simp] theorem State.resetRegisters_accessible (s : State) (r : ResetInput) (addr : Addr) :
    (s.resetRegisters r).accessible addr = s.accessible addr := by
  cases r <;> rfl
@[simp] theorem State.resetRegisters_peek (s : State) (r : ResetInput) (addr : Addr) :
    (s.resetRegisters r).peek addr = s.peek addr := by
  cases r <;> rfl

/-- What the reset sequence does. -/
theorem State.resetSequence_eq_ok (s t : State) (r : ResetInput) :
    s.resetSequence r = .ok t ↔
      s.accessible resetVector = true ∧ s.accessible (resetVector + 1) = true ∧
        t = { s.resetRegisters r with
              sp := s.sp - 3
              ipoll := true
              nmiPending := false
              pc := wordOf (s.peek (resetVector + 1)) (s.peek resetVector)
              cycles := s.cycles + 7 } := by
  unfold State.resetSequence
  simp only [access_bind_eq_ok, State.readVector_eq_ok, pure, Except.pure, State.setNmiPending_accessible,
    State.setIpoll_accessible, State.setSp_accessible, State.resetRegisters_accessible, State.setNmiPending_peek,
    State.setIpoll_peek, State.setSp_peek, State.resetRegisters_peek]
  constructor
  · rintro ⟨w, ⟨h1, h2, rfl⟩, e⟩
    refine ⟨h1, h2, (Except.ok.inj e).symm.trans ?_⟩
    apply State.ext <;> simp
  · rintro ⟨h1, h2, rfl⟩
    refine ⟨_, ⟨h1, h2, rfl⟩, congrArg Except.ok ?_⟩
    apply State.ext <;> simp

/-- An NMI entry is the taking of an exception, with the pending bit cleared. -/
theorem State.nmiEntry_eq_ok (s t : State) :
    s.nmiEntry = .ok t ↔ ∃ u, s.takeException s.pc false nmiVector = .ok u ∧ t = u.setNmiPending false := by
  unfold State.nmiEntry
  simp only [access_bind_eq_ok, pure, Except.pure, Except.ok.injEq, eq_comm (b := t)]

/-- What a fetch gives: the opcode at PC has an admitted row, the row's operand bytes follow, and they decode. -/
theorem State.fetch_eq_ok (s : State) (i : Instr) :
    s.fetch = .ok i ↔
      ∃ op row bs rest, s.read s.pc = .ok op ∧ lookupOpcode op = some row ∧
        (row.inSource || s.cfg.admitSupplement) = true ∧
          s.readBytes (s.pc + 1) (row.form.length - 1) = .ok bs ∧ decode (op :: bs) = .ok (i, rest) := by
  unfold State.fetch
  simp only [access_bind_eq_ok]
  constructor
  · rintro ⟨op, h1, h2⟩
    split at h2
    · cases h2
    · rename_i row hrow
      split at h2
      · cases h2
      · rename_i hin
        obtain ⟨bs, h3, h4⟩ := (access_bind_eq_ok _ _ _).1 h2
        split at h4
        · rename_i j rest hd
          cases h4
          exact ⟨op, row, bs, rest, h1, hrow, hin, h3, hd⟩
        · cases h4
  · rintro ⟨op, row, bs, rest, h1, hrow, hin, h3, hd⟩
    refine ⟨op, h1, ?_⟩
    rw [hrow]
    simp only [hin]
    exact (access_bind_eq_ok _ _ _).2 ⟨bs, h3, by rw [hd]; rfl⟩

@[simp] theorem runFetched_ok (s : State) (i : Instr) : runFetched s (.ok i) = exec i s := rfl

/-- What a step can answer a next state from: the event its boundary takes, or the instruction fetched. -/
theorem step_eq_next (s t : State) :
    step s = .next t ↔
      (∃ e, s.sampled.event s.boundary = some e ∧ s.sampled.takeEvent e = .ok t) ∨
        (s.sampled.event s.boundary = none ∧ ∃ i, s.sampled.fetch = .ok i ∧ exec i s.sampled = .next t) := by
  unfold step
  cases h : s.sampled.event s.boundary with
  | some e => simp
  | none =>
    cases hf : s.sampled.fetch with
    | ok i => simp
    | error r => simp [runFetched]

end Sys2Proof.Machine
end

