-- ==== Sys2Proof/Laws/Operands.lean ====
section
/-! SUPPORT. When each operand form gives a value, and which. -/

namespace Sys2Proof.Machine

@[simp] theorem State.effectiveAddress_zeroPage (s : State) (b : Byte) :
    s.effectiveAddress (.zeroPage b) = .ok (zeroPageAddr b) := rfl

@[simp] theorem State.effectiveAddress_zeroPageX (s : State) (b : Byte) :
    s.effectiveAddress (.zeroPageX b) = .ok (zeroPageAddr (b + s.x)) := rfl

@[simp] theorem State.effectiveAddress_zeroPageY (s : State) (b : Byte) :
    s.effectiveAddress (.zeroPageY b) = .ok (zeroPageAddr (b + s.y)) := rfl

@[simp] theorem State.effectiveAddress_absolute (s : State) (addr : Addr) :
    s.effectiveAddress (.absolute addr) = .ok addr := rfl

@[simp] theorem State.effectiveAddress_absoluteX (s : State) (addr : Addr) :
    s.effectiveAddress (.absoluteX addr) = .ok (addr + s.x.setWidth 16) := rfl

@[simp] theorem State.effectiveAddress_absoluteY (s : State) (addr : Addr) :
    s.effectiveAddress (.absoluteY addr) = .ok (addr + s.y.setWidth 16) := rfl

@[simp] theorem State.effectiveAddress_relative (s : State) (off : Byte) :
    s.effectiveAddress (.relative off) = .ok (s.branchTarget off) := rfl

/-- Indirect mode gives the two bytes at the pointer, the second from the pointer's own page. -/
theorem State.effectiveAddress_indirect_eq_ok (s : State) (ptr w : Addr) :
    s.effectiveAddress (.indirect ptr) = .ok w ↔
      s.accessible ptr = true ∧ s.accessible (pointerHigh ptr) = true ∧
        w = wordOf (s.peek (pointerHigh ptr)) (s.peek ptr) :=
  s.readPair_eq_ok ptr (pointerHigh ptr) w

/-- A zero-page pointer is two bytes of the zero page. -/
theorem State.zeroPagePointer_eq_ok (s : State) (zp : Byte) (w : Addr) :
    s.zeroPagePointer zp = .ok w ↔
      s.accessible (zeroPageAddr zp) = true ∧ s.accessible (zeroPageAddr (zp + 1)) = true ∧
        w = wordOf (s.peek (zeroPageAddr (zp + 1))) (s.peek (zeroPageAddr zp)) :=
  s.readPair_eq_ok _ _ w

theorem State.effectiveAddress_indirectX (s : State) (b : Byte) :
    s.effectiveAddress (.indirectX b) = s.zeroPagePointer (b + s.x) := rfl

theorem State.effectiveAddress_indirectY_eq_ok (s : State) (b : Byte) (w : Addr) :
    s.effectiveAddress (.indirectY b) = .ok w ↔
      ∃ base, s.zeroPagePointer b = .ok base ∧ w = base + s.y.setWidth 16 := by
  unfold State.effectiveAddress
  simp only [access_bind_eq_ok, pure, Except.pure, Except.ok.injEq]
  exact ⟨fun ⟨base, h, e⟩ => ⟨base, h, e.symm⟩, fun ⟨base, h, e⟩ => ⟨base, h, e.symm⟩⟩

@[simp] theorem State.operandByte_accumulator (s : State) : s.operandByte .accumulator = .ok s.a := rfl

@[simp] theorem State.operandByte_immediate (s : State) (v : Byte) : s.operandByte (.immediate v) = .ok v := rfl

/-- An operand in memory is the byte at the effective address, where that is accessible. -/
theorem State.operandByte_memory_eq_ok (s : State) (m : AddrMode) (v : Byte) :
    s.operandByte (.memory m) = .ok v ↔
      ∃ ea, s.effectiveAddress m = .ok ea ∧ s.accessible ea = true ∧ v = s.peek ea := by
  unfold State.operandByte
  simp only [access_bind_eq_ok, State.read_eq_ok]

end Sys2Proof.Machine
end

