-- ==== Sys2Proof/Laws/PerInstr.lean ====
section
/-! SUPPORT. Statements made per instruction: `OpcodeRow`, that an instruction's first byte selects a row of the opcode table, with
the instruction's length and its mark of the source document. One lemma for each constructor of `Instr`. -/

namespace Sys2Proof.Laws.OpcodeRow

open Sys2Proof Sys2Proof.Machine

/-- The first byte of the instruction's encoding selects a row of the opcode table (30_encoding.md R50); the row's length and the
number of bytes encoded are the instruction's length, and the row's mark of the source is the instruction's. -/
def Statement (i : Instr) : Prop :=
  ∃ row, (encode i).head?.bind lookupOpcode = some row ∧ row.form.length = instrLength i ∧
    (encode i).length = instrLength i ∧ row.inSource = i.inSource

theorem ldaImm (v : Byte) : Statement (.ldaImm v) := ⟨_, rfl, rfl, rfl, rfl⟩
theorem ldaZp (b : Byte) : Statement (.ldaZp b) := ⟨_, rfl, rfl, rfl, rfl⟩
theorem ldaZpX (b : Byte) : Statement (.ldaZpX b) := ⟨_, rfl, rfl, rfl, rfl⟩
theorem ldaAbs (addr : Addr) : Statement (.ldaAbs addr) := ⟨_, rfl, rfl, rfl, rfl⟩
theorem ldaAbsX (addr : Addr) : Statement (.ldaAbsX addr) := ⟨_, rfl, rfl, rfl, rfl⟩
theorem ldaAbsY (addr : Addr) : Statement (.ldaAbsY addr) := ⟨_, rfl, rfl, rfl, rfl⟩
theorem ldaIndX (b : Byte) : Statement (.ldaIndX b) := ⟨_, rfl, rfl, rfl, rfl⟩
theorem ldaIndY (b : Byte) : Statement (.ldaIndY b) := ⟨_, rfl, rfl, rfl, rfl⟩
theorem staZp (b : Byte) : Statement (.staZp b) := ⟨_, rfl, rfl, rfl, rfl⟩
theorem staZpX (b : Byte) : Statement (.staZpX b) := ⟨_, rfl, rfl, rfl, rfl⟩
theorem staAbs (addr : Addr) : Statement (.staAbs addr) := ⟨_, rfl, rfl, rfl, rfl⟩
theorem staAbsX (addr : Addr) : Statement (.staAbsX addr) := ⟨_, rfl, rfl, rfl, rfl⟩
theorem staAbsY (addr : Addr) : Statement (.staAbsY addr) := ⟨_, rfl, rfl, rfl, rfl⟩
theorem staIndX (b : Byte) : Statement (.staIndX b) := ⟨_, rfl, rfl, rfl, rfl⟩
theorem staIndY (b : Byte) : Statement (.staIndY b) := ⟨_, rfl, rfl, rfl, rfl⟩
theorem ldxImm (v : Byte) : Statement (.ldxImm v) := ⟨_, rfl, rfl, rfl, rfl⟩
theorem ldxZp (b : Byte) : Statement (.ldxZp b) := ⟨_, rfl, rfl, rfl, rfl⟩
theorem ldxZpY (b : Byte) : Statement (.ldxZpY b) := ⟨_, rfl, rfl, rfl, rfl⟩
theorem ldxAbs (addr : Addr) : Statement (.ldxAbs addr) := ⟨_, rfl, rfl, rfl, rfl⟩
theorem ldxAbsY (addr : Addr) : Statement (.ldxAbsY addr) := ⟨_, rfl, rfl, rfl, rfl⟩
theorem ldyImm (v : Byte) : Statement (.ldyImm v) := ⟨_, rfl, rfl, rfl, rfl⟩
theorem ldyZp (b : Byte) : Statement (.ldyZp b) := ⟨_, rfl, rfl, rfl, rfl⟩
theorem ldyZpX (b : Byte) : Statement (.ldyZpX b) := ⟨_, rfl, rfl, rfl, rfl⟩
theorem ldyAbs (addr : Addr) : Statement (.ldyAbs addr) := ⟨_, rfl, rfl, rfl, rfl⟩
theorem ldyAbsX (addr : Addr) : Statement (.ldyAbsX addr) := ⟨_, rfl, rfl, rfl, rfl⟩
theorem stxZp (b : Byte) : Statement (.stxZp b) := ⟨_, rfl, rfl, rfl, rfl⟩
theorem stxZpY (b : Byte) : Statement (.stxZpY b) := ⟨_, rfl, rfl, rfl, rfl⟩
theorem stxAbs (addr : Addr) : Statement (.stxAbs addr) := ⟨_, rfl, rfl, rfl, rfl⟩
theorem styZp (b : Byte) : Statement (.styZp b) := ⟨_, rfl, rfl, rfl, rfl⟩
theorem styZpX (b : Byte) : Statement (.styZpX b) := ⟨_, rfl, rfl, rfl, rfl⟩
theorem styAbs (addr : Addr) : Statement (.styAbs addr) := ⟨_, rfl, rfl, rfl, rfl⟩
theorem adcImm (v : Byte) : Statement (.adcImm v) := ⟨_, rfl, rfl, rfl, rfl⟩
theorem adcZp (b : Byte) : Statement (.adcZp b) := ⟨_, rfl, rfl, rfl, rfl⟩
theorem adcZpX (b : Byte) : Statement (.adcZpX b) := ⟨_, rfl, rfl, rfl, rfl⟩
theorem adcAbs (addr : Addr) : Statement (.adcAbs addr) := ⟨_, rfl, rfl, rfl, rfl⟩
theorem adcAbsX (addr : Addr) : Statement (.adcAbsX addr) := ⟨_, rfl, rfl, rfl, rfl⟩
theorem adcAbsY (addr : Addr) : Statement (.adcAbsY addr) := ⟨_, rfl, rfl, rfl, rfl⟩
theorem adcIndX (b : Byte) : Statement (.adcIndX b) := ⟨_, rfl, rfl, rfl, rfl⟩
theorem adcIndY (b : Byte) : Statement (.adcIndY b) := ⟨_, rfl, rfl, rfl, rfl⟩
theorem sbcImm (v : Byte) : Statement (.sbcImm v) := ⟨_, rfl, rfl, rfl, rfl⟩
theorem sbcZp (b : Byte) : Statement (.sbcZp b) := ⟨_, rfl, rfl, rfl, rfl⟩
theorem sbcZpX (b : Byte) : Statement (.sbcZpX b) := ⟨_, rfl, rfl, rfl, rfl⟩
theorem sbcAbs (addr : Addr) : Statement (.sbcAbs addr) := ⟨_, rfl, rfl, rfl, rfl⟩
theorem sbcAbsX (addr : Addr) : Statement (.sbcAbsX addr) := ⟨_, rfl, rfl, rfl, rfl⟩
theorem sbcAbsY (addr : Addr) : Statement (.sbcAbsY addr) := ⟨_, rfl, rfl, rfl, rfl⟩
theorem sbcIndX (b : Byte) : Statement (.sbcIndX b) := ⟨_, rfl, rfl, rfl, rfl⟩
theorem sbcIndY (b : Byte) : Statement (.sbcIndY b) := ⟨_, rfl, rfl, rfl, rfl⟩
theorem incZp (b : Byte) : Statement (.incZp b) := ⟨_, rfl, rfl, rfl, rfl⟩
theorem incZpX (b : Byte) : Statement (.incZpX b) := ⟨_, rfl, rfl, rfl, rfl⟩
theorem incAbs (addr : Addr) : Statement (.incAbs addr) := ⟨_, rfl, rfl, rfl, rfl⟩
theorem incAbsX (addr : Addr) : Statement (.incAbsX addr) := ⟨_, rfl, rfl, rfl, rfl⟩
theorem decZp (b : Byte) : Statement (.decZp b) := ⟨_, rfl, rfl, rfl, rfl⟩
theorem decZpX (b : Byte) : Statement (.decZpX b) := ⟨_, rfl, rfl, rfl, rfl⟩
theorem decAbs (addr : Addr) : Statement (.decAbs addr) := ⟨_, rfl, rfl, rfl, rfl⟩
theorem decAbsX (addr : Addr) : Statement (.decAbsX addr) := ⟨_, rfl, rfl, rfl, rfl⟩
theorem inx : Statement .inx := ⟨_, rfl, rfl, rfl, rfl⟩
theorem dex : Statement .dex := ⟨_, rfl, rfl, rfl, rfl⟩
theorem iny : Statement .iny := ⟨_, rfl, rfl, rfl, rfl⟩
theorem dey : Statement .dey := ⟨_, rfl, rfl, rfl, rfl⟩
theorem andImm (v : Byte) : Statement (.andImm v) := ⟨_, rfl, rfl, rfl, rfl⟩
theorem andZp (b : Byte) : Statement (.andZp b) := ⟨_, rfl, rfl, rfl, rfl⟩
theorem andZpX (b : Byte) : Statement (.andZpX b) := ⟨_, rfl, rfl, rfl, rfl⟩
theorem andAbs (addr : Addr) : Statement (.andAbs addr) := ⟨_, rfl, rfl, rfl, rfl⟩
theorem andAbsX (addr : Addr) : Statement (.andAbsX addr) := ⟨_, rfl, rfl, rfl, rfl⟩
theorem andAbsY (addr : Addr) : Statement (.andAbsY addr) := ⟨_, rfl, rfl, rfl, rfl⟩
theorem andIndX (b : Byte) : Statement (.andIndX b) := ⟨_, rfl, rfl, rfl, rfl⟩
theorem andIndY (b : Byte) : Statement (.andIndY b) := ⟨_, rfl, rfl, rfl, rfl⟩
theorem oraImm (v : Byte) : Statement (.oraImm v) := ⟨_, rfl, rfl, rfl, rfl⟩
theorem oraZp (b : Byte) : Statement (.oraZp b) := ⟨_, rfl, rfl, rfl, rfl⟩
theorem oraZpX (b : Byte) : Statement (.oraZpX b) := ⟨_, rfl, rfl, rfl, rfl⟩
theorem oraAbs (addr : Addr) : Statement (.oraAbs addr) := ⟨_, rfl, rfl, rfl, rfl⟩
theorem oraAbsX (addr : Addr) : Statement (.oraAbsX addr) := ⟨_, rfl, rfl, rfl, rfl⟩
theorem oraAbsY (addr : Addr) : Statement (.oraAbsY addr) := ⟨_, rfl, rfl, rfl, rfl⟩
theorem oraIndX (b : Byte) : Statement (.oraIndX b) := ⟨_, rfl, rfl, rfl, rfl⟩
theorem oraIndY (b : Byte) : Statement (.oraIndY b) := ⟨_, rfl, rfl, rfl, rfl⟩
theorem eorImm (v : Byte) : Statement (.eorImm v) := ⟨_, rfl, rfl, rfl, rfl⟩
theorem eorZp (b : Byte) : Statement (.eorZp b) := ⟨_, rfl, rfl, rfl, rfl⟩
theorem eorZpX (b : Byte) : Statement (.eorZpX b) := ⟨_, rfl, rfl, rfl, rfl⟩
theorem eorAbs (addr : Addr) : Statement (.eorAbs addr) := ⟨_, rfl, rfl, rfl, rfl⟩
theorem eorAbsX (addr : Addr) : Statement (.eorAbsX addr) := ⟨_, rfl, rfl, rfl, rfl⟩
theorem eorAbsY (addr : Addr) : Statement (.eorAbsY addr) := ⟨_, rfl, rfl, rfl, rfl⟩
theorem eorIndX (b : Byte) : Statement (.eorIndX b) := ⟨_, rfl, rfl, rfl, rfl⟩
theorem eorIndY (b : Byte) : Statement (.eorIndY b) := ⟨_, rfl, rfl, rfl, rfl⟩
theorem aslAcc : Statement .aslAcc := ⟨_, rfl, rfl, rfl, rfl⟩
theorem aslZp (b : Byte) : Statement (.aslZp b) := ⟨_, rfl, rfl, rfl, rfl⟩
theorem aslZpX (b : Byte) : Statement (.aslZpX b) := ⟨_, rfl, rfl, rfl, rfl⟩
theorem aslAbs (addr : Addr) : Statement (.aslAbs addr) := ⟨_, rfl, rfl, rfl, rfl⟩
theorem aslAbsX (addr : Addr) : Statement (.aslAbsX addr) := ⟨_, rfl, rfl, rfl, rfl⟩
theorem lsrAcc : Statement .lsrAcc := ⟨_, rfl, rfl, rfl, rfl⟩
theorem lsrZp (b : Byte) : Statement (.lsrZp b) := ⟨_, rfl, rfl, rfl, rfl⟩
theorem lsrZpX (b : Byte) : Statement (.lsrZpX b) := ⟨_, rfl, rfl, rfl, rfl⟩
theorem lsrAbs (addr : Addr) : Statement (.lsrAbs addr) := ⟨_, rfl, rfl, rfl, rfl⟩
theorem lsrAbsX (addr : Addr) : Statement (.lsrAbsX addr) := ⟨_, rfl, rfl, rfl, rfl⟩
theorem rolAcc : Statement .rolAcc := ⟨_, rfl, rfl, rfl, rfl⟩
theorem rolZp (b : Byte) : Statement (.rolZp b) := ⟨_, rfl, rfl, rfl, rfl⟩
theorem rolZpX (b : Byte) : Statement (.rolZpX b) := ⟨_, rfl, rfl, rfl, rfl⟩
theorem rolAbs (addr : Addr) : Statement (.rolAbs addr) := ⟨_, rfl, rfl, rfl, rfl⟩
theorem rolAbsX (addr : Addr) : Statement (.rolAbsX addr) := ⟨_, rfl, rfl, rfl, rfl⟩
theorem rorAcc : Statement .rorAcc := ⟨_, rfl, rfl, rfl, rfl⟩
theorem rorZp (b : Byte) : Statement (.rorZp b) := ⟨_, rfl, rfl, rfl, rfl⟩
theorem rorZpX (b : Byte) : Statement (.rorZpX b) := ⟨_, rfl, rfl, rfl, rfl⟩
theorem rorAbs (addr : Addr) : Statement (.rorAbs addr) := ⟨_, rfl, rfl, rfl, rfl⟩
theorem rorAbsX (addr : Addr) : Statement (.rorAbsX addr) := ⟨_, rfl, rfl, rfl, rfl⟩
theorem bcc (off : Byte) : Statement (.bcc off) := ⟨_, rfl, rfl, rfl, rfl⟩
theorem bcs (off : Byte) : Statement (.bcs off) := ⟨_, rfl, rfl, rfl, rfl⟩
theorem beq (off : Byte) : Statement (.beq off) := ⟨_, rfl, rfl, rfl, rfl⟩
theorem bmi (off : Byte) : Statement (.bmi off) := ⟨_, rfl, rfl, rfl, rfl⟩
theorem bne (off : Byte) : Statement (.bne off) := ⟨_, rfl, rfl, rfl, rfl⟩
theorem bpl (off : Byte) : Statement (.bpl off) := ⟨_, rfl, rfl, rfl, rfl⟩
theorem bvc (off : Byte) : Statement (.bvc off) := ⟨_, rfl, rfl, rfl, rfl⟩
theorem bvs (off : Byte) : Statement (.bvs off) := ⟨_, rfl, rfl, rfl, rfl⟩
theorem jmpAbs (addr : Addr) : Statement (.jmpAbs addr) := ⟨_, rfl, rfl, rfl, rfl⟩
theorem jmpInd (ptr : Addr) : Statement (.jmpInd ptr) := ⟨_, rfl, rfl, rfl, rfl⟩
theorem jsr (addr : Addr) : Statement (.jsr addr) := ⟨_, rfl, rfl, rfl, rfl⟩
theorem rts : Statement .rts := ⟨_, rfl, rfl, rfl, rfl⟩
theorem pha : Statement .pha := ⟨_, rfl, rfl, rfl, rfl⟩
theorem php : Statement .php := ⟨_, rfl, rfl, rfl, rfl⟩
theorem pla : Statement .pla := ⟨_, rfl, rfl, rfl, rfl⟩
theorem plp : Statement .plp := ⟨_, rfl, rfl, rfl, rfl⟩
theorem tsx : Statement .tsx := ⟨_, rfl, rfl, rfl, rfl⟩
theorem txs : Statement .txs := ⟨_, rfl, rfl, rfl, rfl⟩
theorem clc : Statement .clc := ⟨_, rfl, rfl, rfl, rfl⟩
theorem sec : Statement .sec := ⟨_, rfl, rfl, rfl, rfl⟩
theorem cli : Statement .cli := ⟨_, rfl, rfl, rfl, rfl⟩
theorem sei : Statement .sei := ⟨_, rfl, rfl, rfl, rfl⟩
theorem clv : Statement .clv := ⟨_, rfl, rfl, rfl, rfl⟩
theorem cld : Statement .cld := ⟨_, rfl, rfl, rfl, rfl⟩
theorem sed : Statement .sed := ⟨_, rfl, rfl, rfl, rfl⟩
theorem cmpImm (v : Byte) : Statement (.cmpImm v) := ⟨_, rfl, rfl, rfl, rfl⟩
theorem cmpZp (b : Byte) : Statement (.cmpZp b) := ⟨_, rfl, rfl, rfl, rfl⟩
theorem cmpZpX (b : Byte) : Statement (.cmpZpX b) := ⟨_, rfl, rfl, rfl, rfl⟩
theorem cmpAbs (addr : Addr) : Statement (.cmpAbs addr) := ⟨_, rfl, rfl, rfl, rfl⟩
theorem cmpAbsX (addr : Addr) : Statement (.cmpAbsX addr) := ⟨_, rfl, rfl, rfl, rfl⟩
theorem cmpAbsY (addr : Addr) : Statement (.cmpAbsY addr) := ⟨_, rfl, rfl, rfl, rfl⟩
theorem cmpIndX (b : Byte) : Statement (.cmpIndX b) := ⟨_, rfl, rfl, rfl, rfl⟩
theorem cmpIndY (b : Byte) : Statement (.cmpIndY b) := ⟨_, rfl, rfl, rfl, rfl⟩
theorem cpxImm (v : Byte) : Statement (.cpxImm v) := ⟨_, rfl, rfl, rfl, rfl⟩
theorem cpxZp (b : Byte) : Statement (.cpxZp b) := ⟨_, rfl, rfl, rfl, rfl⟩
theorem cpxAbs (addr : Addr) : Statement (.cpxAbs addr) := ⟨_, rfl, rfl, rfl, rfl⟩
theorem cpyImm (v : Byte) : Statement (.cpyImm v) := ⟨_, rfl, rfl, rfl, rfl⟩
theorem cpyZp (b : Byte) : Statement (.cpyZp b) := ⟨_, rfl, rfl, rfl, rfl⟩
theorem cpyAbs (addr : Addr) : Statement (.cpyAbs addr) := ⟨_, rfl, rfl, rfl, rfl⟩
theorem bitZp (b : Byte) : Statement (.bitZp b) := ⟨_, rfl, rfl, rfl, rfl⟩
theorem bitAbs (addr : Addr) : Statement (.bitAbs addr) := ⟨_, rfl, rfl, rfl, rfl⟩
theorem nop : Statement .nop := ⟨_, rfl, rfl, rfl, rfl⟩
theorem brk : Statement .brk := ⟨_, rfl, rfl, rfl, rfl⟩
theorem rti : Statement .rti := ⟨_, rfl, rfl, rfl, rfl⟩
theorem tax : Statement .tax := ⟨_, rfl, rfl, rfl, rfl⟩
theorem tay : Statement .tay := ⟨_, rfl, rfl, rfl, rfl⟩
theorem txa : Statement .txa := ⟨_, rfl, rfl, rfl, rfl⟩
theorem tya : Statement .tya := ⟨_, rfl, rfl, rfl, rfl⟩

end Sys2Proof.Laws.OpcodeRow
end

