-- ==== Sys2Proof/Laws/Shapes.lean ====
section
/-! SUPPORT. What each shape of instruction answers when it answers a next state. -/

namespace Sys2Proof.Machine

theorem loadInto_eq_next (put : State → Byte → State) (o : Operand) (c : Cycles) (s t : State) :
    loadInto put o c s = .next t ↔
      ∃ v, s.operandByte o = .ok v ∧
        t = ((put s v).setFlags (s.flags.setNZ v)).advance (operandLength o) (s.cycleCount o c) := by
  unfold loadInto
  simp only [outcome_eq_next, access_bind_eq_ok, pure, Except.pure, Except.ok.injEq, eq_comm (b := t)]

theorem storeAt_eq_next (v : Byte) (m : AddrMode) (c : Cycles) (s t : State) :
    storeAt v m c s = .next t ↔
      ∃ ea, s.effectiveAddress m = .ok ea ∧ s.accessible ea = true ∧
        t = (s.poke ea v).advance (modeLength m) (s.cycleCount (.memory m) c) := by
  unfold storeAt
  simp only [outcome_eq_next, access_bind_eq_ok, State.write_eq_ok, pure, Except.pure, Except.ok.injEq]
  constructor
  · rintro ⟨ea, h, u, ⟨ha, rfl⟩, rfl⟩
    exact ⟨ea, h, ha, rfl⟩
  · rintro ⟨ea, h, ha, rfl⟩
    exact ⟨ea, h, _, ⟨ha, rfl⟩, rfl⟩

theorem accumulate_eq_next (f : Byte → Byte → Flags → Byte × Flags) (o : Operand) (c : Cycles) (s t : State) :
    accumulate f o c s = .next t ↔
      ∃ m, s.operandByte o = .ok m ∧
        t = ((s.setA (f s.a m s.flags).1).setFlags (f s.a m s.flags).2).advance (operandLength o)
          (s.cycleCount o c) := by
  unfold accumulate
  simp only [outcome_eq_next, access_bind_eq_ok, pure, Except.pure, Except.ok.injEq, eq_comm (b := t)]

/-- The decimal check passes exactly when D is 0 or DECIMAL_ARITH is `ignored`. -/
theorem State.checkDecimal_eq_ok (s : State) (mn : Mnemonic) (u : Unit) :
    s.checkDecimal mn = .ok u ↔ (s.flags.d = true → s.cfg.decimal = .ignored) := by
  unfold State.checkDecimal
  cases s.flags.d <;> cases s.cfg.decimal <;> simp

theorem accumulateBinary_eq_next (mn : Mnemonic) (f : Byte → Byte → Flags → Byte × Flags) (o : Operand) (c : Cycles)
    (s t : State) :
    accumulateBinary mn f o c s = .next t ↔
      ∃ m, s.operandByte o = .ok m ∧ (s.flags.d = true → s.cfg.decimal = .ignored) ∧
        t = ((s.setA (f s.a m s.flags).1).setFlags (f s.a m s.flags).2).advance (operandLength o)
          (s.cycleCount o c) := by
  unfold accumulateBinary
  simp only [outcome_eq_next, access_bind_eq_ok, State.checkDecimal_eq_ok, pure, Except.pure, Except.ok.injEq]
  constructor
  · rintro ⟨m, h, _, hd, rfl⟩
    exact ⟨m, h, hd, rfl⟩
  · rintro ⟨m, h, hd, rfl⟩
    exact ⟨m, h, (), hd, rfl⟩

theorem modifyMemory_eq_next (f : Byte → Flags → Byte × Flags) (m : AddrMode) (c : Cycles) (s t : State) :
    modifyMemory f m c s = .next t ↔
      ∃ ea, s.effectiveAddress m = .ok ea ∧ s.accessible ea = true ∧
        t = ((s.poke ea (f (s.peek ea) s.flags).1).setFlags (f (s.peek ea) s.flags).2).advance (modeLength m)
          (s.cycleCount (.memory m) c) := by
  unfold modifyMemory
  simp only [outcome_eq_next, access_bind_eq_ok, State.read_eq_ok, State.write_eq_ok, pure, Except.pure,
    Except.ok.injEq]
  constructor
  · rintro ⟨ea, h, v, ⟨ha, rfl⟩, u, ⟨_, rfl⟩, rfl⟩
    exact ⟨ea, h, ha, rfl⟩
  · rintro ⟨ea, h, ha, rfl⟩
    exact ⟨ea, h, _, ⟨ha, rfl⟩, _, ⟨ha, rfl⟩, rfl⟩

theorem compareWith_eq_next (reg : Byte) (o : Operand) (c : Cycles) (s t : State) :
    compareWith reg o c s = .next t ↔
      ∃ m, s.operandByte o = .ok m ∧
        t = (s.setFlags (s.flags.compare reg m)).advance (operandLength o) (s.cycleCount o c) := by
  unfold compareWith
  simp only [outcome_eq_next, access_bind_eq_ok, pure, Except.pure, Except.ok.injEq, eq_comm (b := t)]

theorem bitTest_eq_next (o : Operand) (c : Cycles) (s t : State) :
    bitTest o c s = .next t ↔
      ∃ m, s.operandByte o = .ok m ∧
        t = (s.setFlags (s.flags.bitTest s.a m)).advance (operandLength o) (s.cycleCount o c) := by
  unfold bitTest
  simp only [outcome_eq_next, access_bind_eq_ok, pure, Except.pure, Except.ok.injEq, eq_comm (b := t)]

theorem modifyRegister_eq_next (put : State → Byte → State) (v : Byte) (f : Byte → Flags → Byte × Flags) (s t : State) :
    modifyRegister put v f s = .next t ↔
      t = ((put s (f v s.flags).1).setFlags (f v s.flags).2).advance 1 2 := by
  unfold modifyRegister
  simp only [Host.Outcome.next.injEq, eq_comm (b := t)]

theorem transferInto_eq_next (put : State → Byte → State) (v : Byte) (s t : State) :
    transferInto put v s = .next t ↔ t = ((put s v).setFlags (s.flags.setNZ v)).advance 1 2 := by
  unfold transferInto
  simp only [Host.Outcome.next.injEq, eq_comm (b := t)]

theorem writeFlags_eq_next (f : Flags) (s t : State) :
    writeFlags f s = .next t ↔ t = (s.setFlags f).advance 1 2 := by
  unfold writeFlags
  simp only [Host.Outcome.next.injEq, eq_comm (b := t)]

/-- A branch always answers a next state: at the target when the condition holds, behind the branch when not. -/
theorem branchIf_eq_next (cond : Bool) (off : Byte) (s t : State) :
    branchIf cond off s = .next t ↔
      (cond = true ∧ t = s.endAt (s.branchTarget off) (3 + (s.crossesPage (.relative off)).toNat)) ∨
        (cond = false ∧ t = s.advance 2 2) := by
  cases cond <;> simp [branchIf, eq_comm (b := t)]

end Sys2Proof.Machine
end

