-- ==== Sys2Proof/Tests/Slice0.lean ====
section
/-! SUPPORT. Tests of the model against the spec: ill-formed terms that the checks refuse, every opcode byte decoded from the grid of
30_encoding.md R68, one step on vectors and scenarios of 95_test_vectors.md (their expected values are the spec's), and for
each statement with hypotheses a named theorem with a state and operands that meet them. -/

namespace Sys2Proof.Machine

/-- The state with bytes of memory placed from outside. -/
def State.load (s : State) : List (Addr × Byte) → State
  | [] => s
  | (addr, v) :: l => State.load (s.loadBytes addr [v]) l

end Sys2Proof.Machine

namespace Sys2Proof.Tests

open Sys2Proof Sys2Proof.Machine

/-! ### Helpers -/

/-- The default state of 95_test_vectors.md. -/
def start : State :=
  { State.reset with
    sp := 0xFF, pc := 0x8000, flags := { n := false, v := false, d := false, i := false, z := false, c := false }, ipoll := false }

/-- One step with the bytes placed at PC. -/
def stepAt (s : State) (bs : List Byte) : Result := step (s.loadBytes s.pc bs)

/-- Whether one step with the bytes placed at PC gives the expected state; `Ipoll` and the cycle count have tests of their own. -/
def check (s : State) (bs : List Byte) (expected : State → State) : Bool :=
  match stepAt s bs with
  | .next t => decide ({ t with cycles := 0, ipoll := false } = { expected (s.loadBytes s.pc bs) with cycles := 0, ipoll := false })
  | .fault _ => false
  | .refused _ => false

/-- What a next state holds, by the function given. -/
def seen {α : Type} (r : Result) (f : State → α) : Option α :=
  match r with
  | .next t => some (f t)
  | .fault _ => none
  | .refused _ => none

/-- The refusal of an answer. -/
def refusal : Result → Option Refusal
  | .refused r => some r
  | .next _ => none
  | .fault _ => none

/-- The instruction an opcode byte followed by 34 12 decodes to. -/
def reads (op : Byte) : Option Instr :=
  match decode [op, 0x34, 0x12] with
  | .ok (i, _) => some i
  | .error _ => none

/-- Sixteen opcode bytes from the one given on. -/
def gridRow (first : Byte) : List (Option Instr) := (List.range 16).map fun k => reads (first + BitVec.ofNat 8 k)

/-- A map with every class, and with the first 2 KiB repeated up to $1FFF as 20_memory.md R44 describes for one platform. -/
def mixedMap : List Region :=
  [ { first := 0x0000, last := 0x1FFF, cls := .ram, base := 0x0000, span := 0x0800 },
    { first := 0x2000, last := 0x3FFF, cls := .device, base := 0x2000, span := 0 },
    { first := 0x6000, last := 0xBFFF, cls := .ram, base := 0x6000, span := 0 },
    { first := 0xC000, last := 0xFFFF, cls := .rom, base := 0xC000, span := 0 } ]

/-- The default state on that map. -/
def mixed : State := { start with cfg := { Config.standard with map := mixedMap } }

/-- A boundary at which nothing happens but what a test changes. -/
def quiet : Boundary := { reset := none, nmiEdge := false, irqLine := false, defer := false }

/-! ### The checks on terms refuse ill-formed ones -/

theorem test_wf_instr_refuses_supplement : Instr.wellFormed { Config.standard with admitSupplement := false } .tax = false := by
  decide

theorem test_wf_instr_admits_source : Instr.wellFormed { Config.standard with admitSupplement := false } .nop = true := by
  decide

theorem test_wf_region_refuses_empty :
    Region.wellFormed { first := 0x0002, last := 0x0001, cls := .ram, base := 0, span := 0 } = false := by
  decide

theorem test_wf_region_refuses_storage_past_end :
    Region.wellFormed { first := 0x0000, last := 0x0FFF, cls := .ram, base := 0xF001, span := 0 } = false := by
  decide

theorem test_wf_map_refuses_overlap :
    regionsWellFormed [ { first := 0x0000, last := 0x1000, cls := .ram, base := 0, span := 0 },
      { first := 0x1000, last := 0x2000, cls := .ram, base := 0x1000, span := 0 } ] = false := by
  decide

theorem test_wf_map_refuses_writable_rom :
    regionsWellFormed [ { first := 0x0000, last := 0x0FFF, cls := .ram, base := 0, span := 0 },
      { first := 0x1000, last := 0x1FFF, cls := .rom, base := 0x0FFF, span := 0 } ] = false := by
  decide

theorem test_wf_config_admits_mixed : mixed.cfg.wellFormed = true := by decide

theorem test_wf_memory_refuses_unsorted : Memory.wf [(2, 1), (1, 1)] = false := by decide

theorem test_wf_memory_refuses_background : Memory.wf [(1, 0)] = false := by decide

/-! ### Decoding -/

theorem test_decode_truncated : (reads 0xA9, decode [0xA9], decode [0xAD, 0x34], decode []) =
    (some (.ldaImm 0x34), .error (.truncated 0xA9), .error (.truncated 0xAD), .error .empty) := by
  rfl

theorem test_decodeTableWord : (decodeTableWord 24 0x1234AD, decodeTableWord 16 0x42A9, decodeTableWord 8 0x00, decodeTableWord 8 0x02) =
    (some (.ldaAbs 0x1234), some (.ldaImm 0x42), some .brk, none) := by
  decide

theorem test_withFetchWord_runs : seen (step (State.reset.withFetchWord 16 0x42A9)) (fun t => (t.a, t.pc)) = some (0x42, 0x0002) := by
  decide

theorem test_withFetchWord_waits_out_events :
    seen (step ({ State.reset with inputs := [{ quiet with nmiEdge := true }], nmiPending := true }.withFetchWord 8 0xE8))
      (fun t => (t.x, t.inputs.length, t.nmiPending)) = some (0x01, 1, true) := by
  decide

/-- Row 0x of the grid of R68: the sixteen opcodes with the operand bytes 34 12. -/
theorem test_decode_row_0 : gridRow 0x00 =
    [some .brk, some (.oraIndX 0x34), none, none, none, some (.oraZp 0x34), some (.aslZp 0x34), none, some .php,
     some (.oraImm 0x34), some .aslAcc, none, none, some (.oraAbs 0x1234), some (.aslAbs 0x1234), none] := by decide

/-- Row 1x of the grid of R68: the sixteen opcodes with the operand bytes 34 12. -/
theorem test_decode_row_1 : gridRow 0x10 =
    [some (.bpl 0x34), some (.oraIndY 0x34), none, none, none, some (.oraZpX 0x34), some (.aslZpX 0x34), none, some .clc,
     some (.oraAbsY 0x1234), none, none, none, some (.oraAbsX 0x1234), some (.aslAbsX 0x1234), none] := by decide

/-- Row 2x of the grid of R68: the sixteen opcodes with the operand bytes 34 12. -/
theorem test_decode_row_2 : gridRow 0x20 =
    [some (.jsr 0x1234), some (.andIndX 0x34), none, none, some (.bitZp 0x34), some (.andZp 0x34), some (.rolZp 0x34),
     none, some .plp, some (.andImm 0x34), some .rolAcc, none, some (.bitAbs 0x1234), some (.andAbs 0x1234),
     some (.rolAbs 0x1234), none] := by decide

/-- Row 3x of the grid of R68: the sixteen opcodes with the operand bytes 34 12. -/
theorem test_decode_row_3 : gridRow 0x30 =
    [some (.bmi 0x34), some (.andIndY 0x34), none, none, none, some (.andZpX 0x34), some (.rolZpX 0x34), none, some .sec,
     some (.andAbsY 0x1234), none, none, none, some (.andAbsX 0x1234), some (.rolAbsX 0x1234), none] := by decide

/-- Row 4x of the grid of R68: the sixteen opcodes with the operand bytes 34 12. -/
theorem test_decode_row_4 : gridRow 0x40 =
    [some .rti, some (.eorIndX 0x34), none, none, none, some (.eorZp 0x34), some (.lsrZp 0x34), none, some .pha,
     some (.eorImm 0x34), some .lsrAcc, none, some (.jmpAbs 0x1234), some (.eorAbs 0x1234), some (.lsrAbs 0x1234),
     none] := by decide

/-- Row 5x of the grid of R68: the sixteen opcodes with the operand bytes 34 12. -/
theorem test_decode_row_5 : gridRow 0x50 =
    [some (.bvc 0x34), some (.eorIndY 0x34), none, none, none, some (.eorZpX 0x34), some (.lsrZpX 0x34), none, some .cli,
     some (.eorAbsY 0x1234), none, none, none, some (.eorAbsX 0x1234), some (.lsrAbsX 0x1234), none] := by decide

/-- Row 6x of the grid of R68: the sixteen opcodes with the operand bytes 34 12. -/
theorem test_decode_row_6 : gridRow 0x60 =
    [some .rts, some (.adcIndX 0x34), none, none, none, some (.adcZp 0x34), some (.rorZp 0x34), none, some .pla,
     some (.adcImm 0x34), some .rorAcc, none, some (.jmpInd 0x1234), some (.adcAbs 0x1234), some (.rorAbs 0x1234),
     none] := by decide

/-- Row 7x of the grid of R68: the sixteen opcodes with the operand bytes 34 12. -/
theorem test_decode_row_7 : gridRow 0x70 =
    [some (.bvs 0x34), some (.adcIndY 0x34), none, none, none, some (.adcZpX 0x34), some (.rorZpX 0x34), none, some .sei,
     some (.adcAbsY 0x1234), none, none, none, some (.adcAbsX 0x1234), some (.rorAbsX 0x1234), none] := by decide

/-- Row 8x of the grid of R68: the sixteen opcodes with the operand bytes 34 12. -/
theorem test_decode_row_8 : gridRow 0x80 =
    [none, some (.staIndX 0x34), none, none, some (.styZp 0x34), some (.staZp 0x34), some (.stxZp 0x34), none, some .dey,
     none, some .txa, none, some (.styAbs 0x1234), some (.staAbs 0x1234), some (.stxAbs 0x1234), none] := by decide

/-- Row 9x of the grid of R68: the sixteen opcodes with the operand bytes 34 12. -/
theorem test_decode_row_9 : gridRow 0x90 =
    [some (.bcc 0x34), some (.staIndY 0x34), none, none, some (.styZpX 0x34), some (.staZpX 0x34), some (.stxZpY 0x34),
     none, some .tya, some (.staAbsY 0x1234), some .txs, none, none, some (.staAbsX 0x1234), none, none] := by decide

/-- Row Ax of the grid of R68: the sixteen opcodes with the operand bytes 34 12. -/
theorem test_decode_row_A : gridRow 0xA0 =
    [some (.ldyImm 0x34), some (.ldaIndX 0x34), some (.ldxImm 0x34), none, some (.ldyZp 0x34), some (.ldaZp 0x34),
     some (.ldxZp 0x34), none, some .tay, some (.ldaImm 0x34), some .tax, none, some (.ldyAbs 0x1234),
     some (.ldaAbs 0x1234), some (.ldxAbs 0x1234), none] := by decide

/-- Row Bx of the grid of R68: the sixteen opcodes with the operand bytes 34 12. -/
theorem test_decode_row_B : gridRow 0xB0 =
    [some (.bcs 0x34), some (.ldaIndY 0x34), none, none, some (.ldyZpX 0x34), some (.ldaZpX 0x34), some (.ldxZpY 0x34),
     none, some .clv, some (.ldaAbsY 0x1234), some .tsx, none, some (.ldyAbsX 0x1234), some (.ldaAbsX 0x1234),
     some (.ldxAbsY 0x1234), none] := by decide

/-- Row Cx of the grid of R68: the sixteen opcodes with the operand bytes 34 12. -/
theorem test_decode_row_C : gridRow 0xC0 =
    [some (.cpyImm 0x34), some (.cmpIndX 0x34), none, none, some (.cpyZp 0x34), some (.cmpZp 0x34), some (.decZp 0x34),
     none, some .iny, some (.cmpImm 0x34), some .dex, none, some (.cpyAbs 0x1234), some (.cmpAbs 0x1234),
     some (.decAbs 0x1234), none] := by decide

/-- Row Dx of the grid of R68: the sixteen opcodes with the operand bytes 34 12. -/
theorem test_decode_row_D : gridRow 0xD0 =
    [some (.bne 0x34), some (.cmpIndY 0x34), none, none, none, some (.cmpZpX 0x34), some (.decZpX 0x34), none, some .cld,
     some (.cmpAbsY 0x1234), none, none, none, some (.cmpAbsX 0x1234), some (.decAbsX 0x1234), none] := by decide

/-- Row Ex of the grid of R68: the sixteen opcodes with the operand bytes 34 12. -/
theorem test_decode_row_E : gridRow 0xE0 =
    [some (.cpxImm 0x34), some (.sbcIndX 0x34), none, none, some (.cpxZp 0x34), some (.sbcZp 0x34), some (.incZp 0x34),
     none, some .inx, some (.sbcImm 0x34), some .nop, none, some (.cpxAbs 0x1234), some (.sbcAbs 0x1234),
     some (.incAbs 0x1234), none] := by decide

/-- Row Fx of the grid of R68: the sixteen opcodes with the operand bytes 34 12. -/
theorem test_decode_row_F : gridRow 0xF0 =
    [some (.beq 0x34), some (.sbcIndY 0x34), none, none, none, some (.sbcZpX 0x34), some (.incZpX 0x34), none, some .sed,
     some (.sbcAbsY 0x1234), none, none, none, some (.sbcAbsX 0x1234), some (.incAbsX 0x1234), none] := by decide

/-! ### One step, from the vectors of 95_test_vectors.md -/

/-- T2, LDA #$00: R80; zero sets Z, clears N. -/
theorem test_T2_lda_00 : check
    ({ start with a := 0x55, flags := { start.flags with n := true } })
    [0xA9, 0x00]
    (fun s => { s with a := 0x00, pc := 0x8002, flags := { s.flags with n := false, z := true } }) = true := by decide

/-- T4, LDA $F0,X: R57; zero page wrap: reads $0010, not $0110. -/
theorem test_T4_lda_f0_x : check
    ({ start with x := 0x20 }.load [(0x0010, 0x99), (0x0110, 0x11)])
    [0xB5, 0xF0] (fun s => { s with a := 0x99, pc := 0x8002, flags := { s.flags with n := true } }) = true := by decide

/-- T7, LDA $FFF0,Y: R61, R43; wraps past $FFFF to $0010. -/
theorem test_T7_lda_fff0_y : check
    ({ start with y := 0x20 }.load [(0x0010, 0x44)])
    [0xB9, 0xF0, 0xFF] (fun s => { s with a := 0x44, pc := 0x8003 }) = true := by decide

/-- T8, LDA ($FE,X): R63; pointer at $FF, high byte from $0000 not $0100. -/
theorem test_T8_lda_fe_x : check
    ({ start with x := 0x01 }.load [(0x00FF, 0x34), (0x0000, 0x12), (0x0100, 0x99), (0x1234, 0xAB)])
    [0xA1, 0xFE] (fun s => { s with a := 0xAB, pc := 0x8002, flags := { s.flags with n := true } }) = true := by decide

/-- T9, LDA ($FF),Y: R64; pointer wraps in zero page; base $20F8 + $10 = $2108 (page crossed). -/
theorem test_T9_lda_ff_y : check
    ({ start with y := 0x10 }.load [(0x00FF, 0xF8), (0x0000, 0x20), (0x0100, 0x77), (0x2108, 0x5A)])
    [0xB1, 0xFF] (fun s => { s with a := 0x5A, pc := 0x8002 }) = true := by decide

/-- T6, LDA $12F0,X: R60; page crossed (5 cycles), result unaffected. -/
theorem test_T6_lda_12f0_x : check
    ({ start with x := 0x10 }.load [(0x1300, 0xC3)])
    [0xBD, 0xF0, 0x12] (fun s => { s with a := 0xC3, pc := 0x8003, flags := { s.flags with n := true } }) = true := by decide

/-- T11, STA $0200: R81; flags untouched even when inconsistent with A. -/
theorem test_T11_sta_0200 : check
    ({ start with a := 0x5A, flags := { start.flags with n := true, z := true } })
    [0x8D, 0x00, 0x02] (fun s => { s with pc := 0x8003 }.load [(0x0200, 0x5A)]) = true := by decide

/-- T12, STA $12F0,X: R81, R60; store across page. -/
theorem test_T12_sta_12f0_x : check
    ({ start with a := 0x11, x := 0x10 })
    [0x9D, 0xF0, 0x12] (fun s => { s with pc := 0x8003 }.load [(0x1300, 0x11)]) = true := by decide

/-- T13, STA ($20,X): R81, R63. -/
theorem test_T13_sta_20_x : check
    ({ start with a := 0x77, x := 0x04 }.load [(0x0024, 0x00), (0x0025, 0x03)])
    [0x81, 0x20] (fun s => { s with pc := 0x8002 }.load [(0x0300, 0x77)]) = true := by decide

/-- T14, STA ($20),Y: R81, R64; $0301+$FF=$0400. -/
theorem test_T14_sta_20_y : check
    ({ start with a := 0x88, y := 0xFF }.load [(0x0020, 0x01), (0x0021, 0x03)])
    [0x91, 0x20] (fun s => { s with pc := 0x8002 }.load [(0x0400, 0x88)]) = true := by decide

/-- T15, LDX #$FF: R82. -/
theorem test_T15_ldx_ff : check
    (start)
    [0xA2, 0xFF] (fun s => { s with x := 0xFF, pc := 0x8002, flags := { s.flags with n := true } }) = true := by decide

/-- T16, LDX $1200,Y: R82, R61. -/
theorem test_T16_ldx_1200_y : check
    ({ start with x := 0x77, y := 0x05 }.load [(0x1205, 0x00)])
    [0xBE, 0x00, 0x12] (fun s => { s with x := 0x00, pc := 0x8003, flags := { s.flags with z := true } }) = true := by decide

/-- T18, LDY $1200,X: R83, R60; no page cross at +$FF from $00. -/
theorem test_T18_ldy_1200_x : check
    ({ start with x := 0xFF }.load [(0x12FF, 0x80)])
    [0xBC, 0x00, 0x12] (fun s => { s with y := 0x80, pc := 0x8003, flags := { s.flags with n := true } }) = true := by decide

/-- T20, STX $F0,Y: R84, R58; wraps to $0001. -/
theorem test_T20_stx_f0_y : check
    ({ start with x := 0x3C, y := 0x11 })
    [0x96, 0xF0] (fun s => { s with pc := 0x8002 }.load [(0x0001, 0x3C)]) = true := by decide

/-- T21, STY $FF,X: R85, R57; wraps to $0001. -/
theorem test_T21_sty_ff_x : check
    ({ start with x := 0x02, y := 0x33 })
    [0x94, 0xFF] (fun s => { s with pc := 0x8002 }.load [(0x0001, 0x33)]) = true := by decide

/-- T22, STY $0300: R85; storing zero does not set Z. -/
theorem test_T22_sty_0300 : check
    ({ start with y := 0x00 })
    [0x8C, 0x00, 0x03] (fun s => { s with pc := 0x8003 }.load [(0x0300, 0x00)]) = true := by decide

/-- T31, ADC #$00: R90; carry in makes 256: Z=1, C=1. -/
theorem test_T31_adc_00 : check
    ({ start with a := 0xFF, flags := { start.flags with c := true } })
    [0x69, 0x00] (fun s => { s with a := 0x00, pc := 0x8002, flags := { s.flags with z := true } }) = true := by decide

/-- T33, ADC #$80: R90; -128 + -128: V=1, C=1, Z=1. -/
theorem test_T33_adc_80 : check
    ({ start with a := 0x80 })
    [0x69, 0x80]
    (fun s => { s with a := 0x00, pc := 0x8002, flags := { s.flags with v := true, z := true, c := true } }) = true := by decide

/-- T36, ADC #$01: R90 with DECIMAL_ARITH=ignored: binary $0A (an NMOS 6502 in BCD would give $10). With DECIMAL_ARITH=refuse the outcome is Refused. -/
theorem test_T36_adc_01 : check
    ({ start with a := 0x09, flags := { start.flags with d := true } })
    [0x69, 0x01]
    (fun s => { s with a := 0x0A, pc := 0x8002 }) = true := by decide

/-- T38, SBC #$01: R91; 0-1 = $FF, borrow: C=0. -/
theorem test_T38_sbc_01 : check
    ({ start with a := 0x00, flags := { start.flags with c := true } })
    [0xE9, 0x01]
    (fun s => { s with a := 0xFF, pc := 0x8002, flags := { s.flags with n := true, c := false } }) = true := by decide

/-- T39, SBC #$01: R91; -128 - 1: V=1, no borrow (C=1). -/
theorem test_T39_sbc_01 : check
    ({ start with a := 0x80, flags := { start.flags with c := true } })
    [0xE9, 0x01] (fun s => { s with a := 0x7F, pc := 0x8002, flags := { s.flags with v := true } }) = true := by decide

/-- T43, INC $10: R92; wraps to $00, Z=1; C not touched. -/
theorem test_T43_inc_10 : check
    ({ start with flags := { start.flags with c := true } }.load [(0x0010, 0xFF)])
    [0xE6, 0x10] (fun s => { s with pc := 0x8002, flags := { s.flags with z := true } }.load [(0x0010, 0x00)]) = true := by decide

/-- T44, INC $F8,X: R92, R57; address wraps to $0008; N=1. -/
theorem test_T44_inc_f8_x : check
    ({ start with x := 0x10 }.load [(0x0008, 0x7F)])
    [0xF6, 0xF8] (fun s => { s with pc := 0x8002, flags := { s.flags with n := true } }.load [(0x0008, 0x80)]) = true := by decide

/-- T46, DEC $10: R93; wraps to $FF; V not touched. -/
theorem test_T46_dec_10 : check
    ({ start with flags := { start.flags with v := true } }.load [(0x0010, 0x00)])
    [0xC6, 0x10] (fun s => { s with pc := 0x8002, flags := { s.flags with n := true } }.load [(0x0010, 0xFF)]) = true := by decide

/-- T48, INX: R94. -/
theorem test_T48_inx : check
    ({ start with x := 0xFF })
    [0xE8] (fun s => { s with x := 0x00, pc := 0x8001, flags := { s.flags with z := true } }) = true := by decide

/-- T49, DEX: R95. -/
theorem test_T49_dex : check
    ({ start with x := 0x00 })
    [0xCA] (fun s => { s with x := 0xFF, pc := 0x8001, flags := { s.flags with n := true } }) = true := by decide

/-- T50, INY: R96. -/
theorem test_T50_iny : check
    ({ start with y := 0x7F })
    [0xC8] (fun s => { s with y := 0x80, pc := 0x8001, flags := { s.flags with n := true } }) = true := by decide

/-- T51, DEY: R97. -/
theorem test_T51_dey : check
    ({ start with y := 0x01 })
    [0x88] (fun s => { s with y := 0x00, pc := 0x8001, flags := { s.flags with z := true } }) = true := by decide

/-- T60, AND #$0F: R100. -/
theorem test_T60_and_0f : check
    ({ start with a := 0xA5 })
    [0x29, 0x0F] (fun s => { s with a := 0x05, pc := 0x8002 }) = true := by decide

/-- T63, ORA $1234: R101; zero. -/
theorem test_T63_ora_1234 : check
    ({ start with a := 0x00 }.load [(0x1234, 0x00)])
    [0x0D, 0x34, 0x12] (fun s => { s with a := 0x00, pc := 0x8003, flags := { s.flags with z := true } }) = true := by decide

/-- T64, EOR #$FF: R102; complement. -/
theorem test_T64_eor_ff : check
    ({ start with a := 0x0F })
    [0x49, 0xFF] (fun s => { s with a := 0xF0, pc := 0x8002, flags := { s.flags with n := true } }) = true := by decide

/-- T66, ASL A: R103; bit 7 to C. -/
theorem test_T66_asl_a : check
    ({ start with a := 0x81 })
    [0x0A] (fun s => { s with a := 0x02, pc := 0x8001, flags := { s.flags with c := true } }) = true := by decide

/-- T68, ASL $1234: R103; result 0: Z=1, C=1. -/
theorem test_T68_asl_1234 : check
    (start.load [(0x1234, 0x80)])
    [0x0E, 0x34, 0x12]
    (fun s => { s with pc := 0x8003, flags := { s.flags with z := true, c := true } }.load [(0x1234, 0x00)]) = true := by decide

/-- T70, LSR $10: R104; C from old bit 0 = 0; old C not shifted in. -/
theorem test_T70_lsr_10 : check
    ({ start with flags := { start.flags with c := true } }.load [(0x0010, 0xFE)])
    [0x46, 0x10]
    (fun s => { s with pc := 0x8002, flags := { s.flags with c := false } }.load [(0x0010, 0x7F)]) = true := by decide

/-- T71, ROL A: R105; 9-bit rotate through C. -/
theorem test_T71_rol_a : check
    ({ start with a := 0x80, flags := { start.flags with c := true } })
    [0x2A] (fun s => { s with a := 0x01, pc := 0x8001 }) = true := by decide

/-- T72, ROL $10: R105. -/
theorem test_T72_rol_10 : check
    (start.load [(0x0010, 0xFF)])
    [0x26, 0x10]
    (fun s => { s with pc := 0x8002, flags := { s.flags with n := true, c := true } }.load [(0x0010, 0xFE)]) = true := by decide

/-- T73, ROR A: R106. -/
theorem test_T73_ror_a : check
    ({ start with a := 0x01, flags := { start.flags with c := true } })
    [0x6A] (fun s => { s with a := 0x80, pc := 0x8001, flags := { s.flags with n := true } }) = true := by decide

/-- T75, ROR $10: R106; C enters bit 7. -/
theorem test_T75_ror_10 : check
    ({ start with flags := { start.flags with c := true } }.load [(0x0010, 0x00)])
    [0x66, 0x10]
    (fun s => { s with pc := 0x8002, flags := { s.flags with n := true, c := false } }.load [(0x0010, 0x80)]) = true := by decide

/-- T82, BEQ -2: R113; offset $FE = -2: branches to itself. -/
theorem test_T82_beq_2 : check
    ({ start with flags := { start.flags with z := true } })
    [0xF0, 0xFE] (fun s => { s with pc := 0x8000 }) = true := by decide

/-- T83, BCC -128: R111, 90_conflicts.md C2; offset $80 = -128: $8002-128. -/
theorem test_T83_bcc_128 : check (start) [0x90, 0x80] (fun s => { s with pc := 0x7F82 }) = true := by decide

/-- T84, BCS +127: R112; largest forward offset. -/
theorem test_T84_bcs_127 : check
    ({ start with flags := { start.flags with c := true } })
    [0xB0, 0x7F] (fun s => { s with pc := 0x8081 }) = true := by decide

/-- T81, BNE +4: R115; not taken: falls through. -/
theorem test_T81_bne_4 : check
    ({ start with flags := { start.flags with z := true } })
    [0xD0, 0x04] (fun s => { s with pc := 0x8002 }) = true := by decide

/-- T91, BNE +$20: R110, R43; target wraps modulo 65536. -/
theorem test_T91_bne_20 : check ({ start with pc := 0xFFF0 }) [0xD0, 0x20] (fun s => { s with pc := 0x0012 }) = true := by decide

/-- T86, BMI +2: R114. -/
theorem test_T86_bmi_2 : check
    ({ start with flags := { start.flags with n := true } })
    [0x30, 0x02] (fun s => { s with pc := 0x8004 }) = true := by decide

/-- T92, BPL -4: R110; target wraps below $0000: $0003-4. -/
theorem test_T92_bpl_4 : check ({ start with pc := 0x0001 }) [0x10, 0xFC] (fun s => { s with pc := 0xFFFF }) = true := by decide

/-- T88, BVC +2: R117. -/
theorem test_T88_bvc_2 : check (start) [0x50, 0x02] (fun s => { s with pc := 0x8004 }) = true := by decide

/-- T90, BVS +2: R118. -/
theorem test_T90_bvs_2 : check
    ({ start with flags := { start.flags with v := true } })
    [0x70, 0x02] (fun s => { s with pc := 0x8004 }) = true := by decide

/-- T94, JMP $1234: R119. -/
theorem test_T94_jmp_1234 : check (start) [0x4C, 0x34, 0x12] (fun s => { s with pc := 0x1234 }) = true := by decide

/-- T96, JMP ($02FF): R120; the source's JMP bug (E13): high byte from $0200, not $0300. -/
theorem test_T96_jmp_02ff : check
    (start.load [(0x02FF, 0x78), (0x0300, 0x56), (0x0200, 0x9A)])
    [0x6C, 0xFF, 0x02] (fun s => { s with pc := 0x9A78 }) = true := by decide

/-- T99, JSR $9000: R121, R14; SP wraps: writes $0100 then $01FF. -/
theorem test_T99_jsr_9000 : check
    ({ start with sp := 0x00 })
    [0x20, 0x00, 0x90] (fun s => { s with sp := 0xFE, pc := 0x9000 }.load [(0x0100, 0x80), (0x01FF, 0x02)]) = true := by decide

/-- T100, RTS: R122, R43; $FFFF+1 wraps to $0000. -/
theorem test_T100_rts : check
    ({ start with pc := 0x9000, sp := 0xFD }.load [(0x01FE, 0xFF), (0x01FF, 0xFF)])
    [0x60] (fun s => { s with sp := 0xFF, pc := 0x0000 }) = true := by decide

/-- T111, PHA: R132, R14; SP wraps $00 to $FF. -/
theorem test_T111_pha : check
    ({ start with a := 0x42, sp := 0x00 })
    [0x48] (fun s => { s with sp := 0xFF, pc := 0x8001 }.load [(0x0100, 0x42)]) = true := by decide

/-- T112, PHP: R133; $37 = bit 5 + bit 4 + I + Z + C. -/
theorem test_T112_php : check
    ({ start with flags := { start.flags with i := true, z := true, c := true }, ipoll := true })
    [0x08] (fun s => { s with sp := 0xFE, pc := 0x8001 }.load [(0x01FF, 0x37)]) = true := by decide

/-- T116, PLA: R134, R14; SP wraps $FF to $00; Z=1. -/
theorem test_T116_pla : check
    ({ start with a := 0x11, sp := 0xFF }.load [(0x0100, 0x00)])
    [0x68] (fun s => { s with a := 0x00, sp := 0x00, pc := 0x8001, flags := { s.flags with z := true } }) = true := by decide

/-- T119, PLP: R135; bits 5 and 4 set in the byte change nothing. -/
theorem test_T119_plp : check
    ({ start with sp := 0xFE }.load [(0x01FF, 0x30)])
    [0x28] (fun s => { s with sp := 0xFF, pc := 0x8001 }) = true := by decide

/-- T120, TSX: R136. -/
theorem test_T120_tsx : check
    ({ start with sp := 0xFD })
    [0xBA] (fun s => { s with x := 0xFD, pc := 0x8001, flags := { s.flags with n := true } }) = true := by decide

/-- T122, TXS: R137; no flags, even though $FF is negative. -/
theorem test_T122_txs : check
    ({ start with x := 0xFF, sp := 0x00 })
    [0x9A] (fun s => { s with sp := 0xFF, pc := 0x8001 }) = true := by decide

/-- T124, CLC: R140. -/
theorem test_T124_clc : check
    ({ start with flags := { start.flags with c := true } })
    [0x18] (fun s => { s with pc := 0x8001, flags := { s.flags with c := false } }) = true := by decide

/-- T125, SEC: R141. -/
theorem test_T125_sec : check
    (start)
    [0x38] (fun s => { s with pc := 0x8001, flags := { s.flags with c := true } }) = true := by decide

/-- T126, CLI: R142; Ipoll=1 after this step (R190). -/
theorem test_T126_cli : check
    ({ start with flags := { start.flags with i := true }, ipoll := true })
    [0x58] (fun s => { s with pc := 0x8001, flags := { s.flags with i := false } }) = true := by decide

/-- T127, SEI: R143; Ipoll=0 after this step (R190). -/
theorem test_T127_sei : check
    (start)
    [0x78] (fun s => { s with pc := 0x8001, flags := { s.flags with i := true } }) = true := by decide

/-- T128, CLV: R144. -/
theorem test_T128_clv : check
    ({ start with flags := { start.flags with v := true } })
    [0xB8] (fun s => { s with pc := 0x8001, flags := { s.flags with v := false } }) = true := by decide

/-- T129, CLD: R145. -/
theorem test_T129_cld : check
    ({ start with flags := { start.flags with d := true } })
    [0xD8] (fun s => { s with pc := 0x8001, flags := { s.flags with d := false } }) = true := by decide

/-- T130, SED: R146. -/
theorem test_T130_sed : check
    (start)
    [0xF8] (fun s => { s with pc := 0x8001, flags := { s.flags with d := true } }) = true := by decide

/-- T140, CMP #$10: R150; A<m: C=0, N from $FF. -/
theorem test_T140_cmp_10 : check
    ({ start with a := 0x0F })
    [0xC9, 0x10] (fun s => { s with pc := 0x8002, flags := { s.flags with n := true } }) = true := by decide

/-- T143, CMP #$01: R150; signed -128 against 1: N=0, V untouched. -/
theorem test_T143_cmp_01 : check
    ({ start with a := 0x80 })
    [0xC9, 0x01] (fun s => { s with pc := 0x8002, flags := { s.flags with c := true } }) = true := by decide

/-- T147, CPX $10: R151. -/
theorem test_T147_cpx_10 : check
    ({ start with x := 0x07 }.load [(0x0010, 0x08)])
    [0xE4, 0x10] (fun s => { s with pc := 0x8002, flags := { s.flags with n := true } }) = true := by decide

/-- T149, CPY $1234: R152. -/
theorem test_T149_cpy_1234 : check
    ({ start with y := 0x80 }.load [(0x1234, 0x7F)])
    [0xCC, 0x34, 0x12] (fun s => { s with pc := 0x8003, flags := { s.flags with c := true } }) = true := by decide

/-- T150, BIT $20: R153; N, V from memory; A&m=0. -/
theorem test_T150_bit_20 : check
    ({ start with a := 0x01 }.load [(0x0020, 0xC0)])
    [0x24, 0x20] (fun s => { s with pc := 0x8002, flags := { s.flags with n := true, v := true, z := true } }) = true := by decide

/-- T152, BIT $1234: R153; A=0: Z=1; V=1; C untouched. -/
theorem test_T152_bit_1234 : check
    ({ start with a := 0x00, flags := { start.flags with c := true } }.load [(0x1234, 0x40)])
    [0x2C, 0x34, 0x12] (fun s => { s with pc := 0x8003, flags := { s.flags with v := true, z := true } }) = true := by decide

/-- T160, NOP: R155. -/
theorem test_T160_nop : check (start) [0xEA] (fun s => { s with pc := 0x8001 }) = true := by decide

/-- T162, BRK: R156; not masked by I; D unchanged; pushes $BC. -/
theorem test_T162_brk : check
    ({ start with flags := { start.flags with n := true, d := true, i := true }, ipoll := true }.load [(0xFFFE, 0x34), (0xFFFF, 0x12)])
    [0x00]
    (fun s => { s with sp := 0xFC, pc := 0x1234 }.load [(0x01FF, 0x80), (0x01FE, 0x02), (0x01FD, 0xBC)]) = true := by decide

/-- T163, BRK: R156, R14; pushes at $0101, $0100, $01FF. -/
theorem test_T163_brk : check
    ({ start with sp := 0x01 }.load [(0xFFFE, 0x00), (0xFFFF, 0x90)])
    [0x00]
    (fun s => { s with sp := 0xFE, pc := 0x9000, flags := { s.flags with i := true } }.load [(0x0101, 0x80), (0x0100, 0x02), (0x01FF, 0x30)]) = true := by decide

/-- T164, RTI: R157; returns to $8002, no +1; Ipoll=0 at once. -/
theorem test_T164_rti : check
    ({ start with pc := 0x9000, sp := 0xFC, flags := { start.flags with i := true }, ipoll := true }.load [(0x01FD, 0x33), (0x01FE, 0x02), (0x01FF, 0x80)])
    [0x40]
    (fun s => { s with sp := 0xFF, pc := 0x8002, flags := { s.flags with i := false, z := true, c := true } }) = true := by decide

/-- T170, TAX: R160. -/
theorem test_T170_tax : check
    ({ start with a := 0x00, x := 0x55 })
    [0xAA] (fun s => { s with x := 0x00, pc := 0x8001, flags := { s.flags with z := true } }) = true := by decide

/-- T171, TAY: R161. -/
theorem test_T171_tay : check
    ({ start with a := 0x80 })
    [0xA8] (fun s => { s with y := 0x80, pc := 0x8001, flags := { s.flags with n := true } }) = true := by decide

/-- T172, TXA: R162. -/
theorem test_T172_txa : check ({ start with x := 0x7F }) [0x8A] (fun s => { s with a := 0x7F, pc := 0x8001 }) = true := by decide

/-- T173, TYA: R163. -/
theorem test_T173_tya : check
    ({ start with y := 0xFF })
    [0x98] (fun s => { s with a := 0xFF, pc := 0x8001, flags := { s.flags with n := true } }) = true := by decide

/-- T174, ADC $10,X: R164, R57, R90. -/
theorem test_T174_adc_10_x : check
    ({ start with a := 0x01, x := 0xF5 }.load [(0x0005, 0x01)])
    [0x75, 0x10] (fun s => { s with a := 0x02, pc := 0x8002 }) = true := by decide

/-- T175, STA $0200,Y: R164, R61, R81. -/
theorem test_T175_sta_0200_y : check
    ({ start with a := 0xAA, y := 0x10 })
    [0x99, 0x00, 0x02] (fun s => { s with pc := 0x8003 }.load [(0x0210, 0xAA)]) = true := by decide

/-- T176, LDX $F0,Y: R164, R58, R82; zero page wrap. -/
theorem test_T176_ldx_f0_y : check
    ({ start with y := 0x20 }.load [(0x0010, 0x80)])
    [0xB6, 0xF0] (fun s => { s with x := 0x80, pc := 0x8002, flags := { s.flags with n := true } }) = true := by decide

/-- T177, ROR $1200,X: R164, R60, R106. -/
theorem test_T177_ror_1200_x : check
    ({ start with x := 0x02, flags := { start.flags with c := true } }.load [(0x1202, 0x02)])
    [0x7E, 0x00, 0x12]
    (fun s => { s with pc := 0x8003, flags := { s.flags with n := true, c := false } }.load [(0x1202, 0x81)]) = true := by decide

/-- T178, CMP ($20),Y: R164, R64, R150; $02FF+1=$0300. -/
theorem test_T178_cmp_20_y : check
    ({ start with a := 0x40, y := 0x01 }.load [(0x0020, 0xFF), (0x0021, 0x02), (0x0300, 0x40)])
    [0xD1, 0x20] (fun s => { s with pc := 0x8002, flags := { s.flags with z := true, c := true } }) = true := by decide

/-- T179, SBC ($20,X): R164, R63, R91. -/
theorem test_T179_sbc_20_x : check
    ({ start with a := 0x00, x := 0x02, flags := { start.flags with c := true } }.load [(0x0022, 0x00), (0x0023, 0x03), (0x0300, 0x01)])
    [0xE1, 0x20]
    (fun s => { s with a := 0xFF, pc := 0x8002, flags := { s.flags with n := true, c := false } }) = true := by decide

/-- T180, ASL $F0,X: R164, R57, R103. -/
theorem test_T180_asl_f0_x : check
    ({ start with x := 0x20 }.load [(0x0010, 0xC0)])
    [0x16, 0xF0]
    (fun s => { s with pc := 0x8002, flags := { s.flags with n := true, c := true } }.load [(0x0010, 0x80)]) = true := by decide

/-- T191: [0xEB, 0x01] is refused (R69). -/
theorem test_T191_refused : refusal (stepAt ({ start with a := 0x05, flags := { start.flags with c := true } }) [0xEB, 0x01]) = some (.undefinedOpcode 0xEB) := by decide


/-! ### Cycles, interrupts and reset, from 95_test_vectors.md 1.5 and Part 3 -/

/-- 1.5: `BNE` offset $02 at $80FC taken to another page takes 4 cycles, offset $04 at $8000 takes 3, not taken 2. -/
theorem test_cycles_branch :
    (seen (stepAt { start with pc := 0x80FC } [0xD0, 0x02]) (·.cycles), seen (stepAt start [0xD0, 0x04]) (·.cycles),
      seen (stepAt { start with flags := { start.flags with z := true } } [0xD0, 0x04]) (·.cycles)) = (some 4, some 3, some 2) := by
  decide

/-- 1.5: `LDA $12F0,X` takes 4 cycles with X=$0F and 5 with X=$10; `STA $12F0,X` takes 5 in both cases. -/
theorem test_cycles_indexed :
    (seen (stepAt { start with x := 0x0F } [0xBD, 0xF0, 0x12]) (·.cycles),
      seen (stepAt { start with x := 0x10 } [0xBD, 0xF0, 0x12]) (·.cycles),
      seen (stepAt { start with x := 0x0F } [0x9D, 0xF0, 0x12]) (·.cycles),
      seen (stepAt { start with x := 0x10 } [0x9D, 0xF0, 0x12]) (·.cycles)) = (some 4, some 5, some 5, some 5) := by
  decide

/-- 1.5: `LDA ($42),Y` with the pointer $20F8 takes 5 cycles with Y=$07 and 6 with Y=$08. -/
theorem test_cycles_indirect_y :
    (seen (stepAt ({ start with y := 0x07 }.load [(0x0042, 0xF8), (0x0043, 0x20)]) [0xB1, 0x42]) (·.cycles),
      seen (stepAt ({ start with y := 0x08 }.load [(0x0042, 0xF8), (0x0043, 0x20)]) [0xB1, 0x42]) (·.cycles)) = (some 5, some 6) := by
  decide

/-- S1: after the CLI (I=0, `Ipoll`=1) the active line is not taken and INX runs; at the boundary after that it is. -/
theorem test_s1_cli_latency :
    (seen (step { start.load [(0x8000, 0xE8)] with ipoll := true, irqLine := true }) (fun t => (t.x, t.pc, t.ipoll)),
      seen (step { start.load [(0xFFFF, 0x90)] with pc := 0x8002, irqLine := true })
        (fun t => (t.pc, t.sp, t.peek 0x01FF, t.peek 0x01FE, t.peek 0x01FD, t.flags.i, t.ipoll))) =
      (some (0x01, 0x8001, false), some (0x9000, 0xFC, 0x80, 0x02, 0x20, true, true)) := by
  rfl

/-- The state of S2 at the boundary after SEI, with what the environment does there. -/
def afterSei (b : Boundary) : State :=
  { start.load [(0x8001, 0xEA), (0xFFFF, 0x90)] with
    pc := 0x8001, flags := { start.flags with i := true }, ipoll := false, inputs := [b] }

/-- S2: the line goes active at the boundary after SEI; the IRQ is taken although I=1 and pushes $24; put off, NOP runs. -/
theorem test_s2_irq_after_sei :
    (seen (step (afterSei { quiet with irqLine := true })) (fun t => (t.pc, t.peek 0x01FE, t.peek 0x01FD)),
      seen (step (afterSei { quiet with irqLine := true, defer := true })) (fun t => (t.pc, t.ipoll))) =
        (some (0x9000, 0x01, 0x24), some (0x8002, true)) := by
  decide

/-- S3: NMI entry ignores I. -/
theorem test_s3_nmi_ignores_i :
    seen (step { start.load [(0xFFFB, 0xA0)] with
        pc := 0x8123, sp := 0xF0, flags := { start.flags with n := true, i := true, c := true }, ipoll := true, nmiPending := true })
      (fun t => (t.peek 0x01F0, t.peek 0x01EF, t.peek 0x01EE, t.sp, t.pc, t.nmiPending, t.ipoll, t.flags.n)) =
        some (0x81, 0x23, 0xA5, 0xED, 0xA000, false, true, true) := by
  rfl

/-- S4: IRQ entry pushes PC and $20, BRK pushes PC + 2 and $30. -/
theorem test_s4_brk_and_irq :
    (seen (step { start.load [(0xFFFF, 0x90)] with irqLine := true })
        (fun t => (t.peek 0x01FF, t.peek 0x01FE, t.peek 0x01FD, t.pc)),
      seen (stepAt (start.load [(0xFFFF, 0x90)]) [0x00]) (fun t => (t.peek 0x01FF, t.peek 0x01FE, t.peek 0x01FD, t.pc))) =
        (some (0x80, 0x00, 0x20, 0x9000), some (0x80, 0x02, 0x30, 0x9000)) := by
  decide

/-- S5: with both pending the NMI is taken, and the line stays active. -/
theorem test_s5_priority :
    seen (step { start.load [(0xFFFB, 0xA0)] with irqLine := true, nmiPending := true })
      (fun t => (t.pc, t.nmiPending, t.irqLine, t.ipoll)) = some (0xA000, false, true, true) := by
  decide

/-- S6: a reset lowers SP by 3 and writes no memory. -/
theorem test_s6_reset :
    seen (step { start.load [(0xFFFD, 0x80), (0x0120, 0x11)] with
        pc := 0xABCD, sp := 0x20, nmiPending := true, inputs := [{ quiet with reset := some .draw }] })
      (fun t => (t.pc, t.sp, t.flags.i, t.ipoll, t.nmiPending, t.peek 0x0120)) = some (0x8000, 0x1D, true, true, false, 0x11) := by
  decide

/-- 20_memory.md R44: where the platform repeats its RAM, a byte stored at $0000 reads back at $0800 and $1800. -/
theorem test_mirror :
    seen (stepAt { mixed with a := 0x5A } [0x85, 0x00]) (fun t => (t.peek 0x0000, t.peek 0x0800, t.peek 0x1800, t.peek 0x0001)) =
      some (0x5A, 0x5A, 0x5A, 0x00) := by
  decide

/-- 20_memory.md R36: a device read and an unmapped read are refused by name, a ROM write changes nothing and INC there still sets Z. -/
theorem test_classes :
    (refusal (stepAt mixed [0xAD, 0x02, 0x20]), refusal (stepAt mixed [0xAD, 0x00, 0x50]),
      seen (stepAt (mixed.load [(0xC000, 0xFF)]) [0xEE, 0x00, 0xC0]) (fun t => (t.peek 0xC000, t.flags.z))) =
        (some (.deviceAccess 0x2002), some (.unmappedAddress 0x5000), some (0xFF, true)) := by
  decide

/-- T36 under DECIMAL_ARITH = refuse: the ADC is refused. -/
theorem test_decimal_refused :
    refusal (stepAt { start with flags := { start.flags with d := true }, cfg := { Config.standard with decimal := .refuse } } [0x69, 0x01]) =
      some (.decimalArithmetic .adc) := by
  decide

/-- 95 section 2.8: with ADMIT_SUPPLEMENT false a supplement row is refused. -/
theorem test_supplement_refused :
    refusal (stepAt { start with cfg := { Config.standard with admitSupplement := false } } [0xAA]) = some (.undefinedOpcode 0xAA) := by
  decide

/-! ### Witnesses: for each statement with hypotheses, a state and operands that meet them -/

/-- All flags 1 and A = $80, X = $FF, Y = $00: a state at the ends of the ranges. -/
def edge : State :=
  { start with
    a := 0x80, x := 0xFF, y := 0x00, sp := 0x00, ipoll := true
    flags := { n := true, v := true, d := true, i := true, z := true, c := true } }

/-- A state at whose boundary the environment does `b`. -/
def atBoundary (s : State) (b : Boundary) : State := { s with inputs := [b] }

theorem start_accessible (addr : Addr) : start.accessible addr = true := by
  have h : regionOf start.cfg addr = some { first := 0x0000, last := 0xFFFF, cls := .ram, base := 0x0000, span := 0 } := by
    have := addr.isLt
    simp [regionOf, start, State.reset, Config.standard]
    omega
  unfold State.accessible State.classOf
  rw [h]

theorem start_plainStack : start.PlainStack := by
  have h (p : Byte) : regionOf start.cfg (stackAddr p) =
      some { first := 0x0000, last := 0xFFFF, cls := .ram, base := 0x0000, span := 0 } := by
    have := (stackAddr p).isLt
    simp [regionOf, start, State.reset, Config.standard]
    omega
  refine ⟨fun p => ?_, fun p q hpq he => hpq ?_⟩
  · unfold State.classOf
    rw [h]
  · unfold State.cellOf at he
    rw [h, h] at he
    have h1 := (stackAddr p).isLt
    have h2 := (stackAddr q).isLt
    have z : (0x0000 : Addr).toNat = 0 := rfl
    simp only [z, Nat.sub_zero, Nat.mod_zero, Nat.zero_add] at he
    rw [Nat.mod_eq_of_lt h1, Nat.mod_eq_of_lt h2] at he
    have key : ∀ r : Byte, loByte (stackAddr r) = r := by decide
    rw [← key p, ← key q, BitVec.eq_of_toNat_eq he]

/-- A one-byte instruction, the same at a boundary that puts an active IRQ off, and a three-byte one across $FFFF. -/
theorem witness_StepRunsDecodedInstruction :
    (start.sampled.event start.boundary = none ∧ Instr.wellFormed start.cfg .tax = true ∧
      (start.load [(0x8000, 0xAA)]).readBytes 0x8000 1 = .ok [0xAA] ∧ decode [0xAA] = .ok (.tax, [])) ∧
    (let s := atBoundary start { quiet with irqLine := true, defer := true }
     s.inputs ≠ [] ∧ s.sampled.event s.boundary = none) ∧
    (({ start with pc := 0xFFFE }.load [(0xFFFE, 0x6C), (0xFFFF, 0xFF), (0x0000, 0x02)]).readBytes 0xFFFE 3 =
      .ok [0x6C, 0xFF, 0x02] ∧ decode [0x6C, 0xFF, 0x02] = .ok (.jmpInd 0x02FF, [])) :=
  ⟨⟨rfl, rfl, rfl, rfl⟩, ⟨by decide, rfl⟩, rfl, rfl⟩

/-- A step of each kind: an instruction, a reset, an NMI, an IRQ. -/
theorem witness_StepAppliesBoundaryInputs :
    (∃ t, step (start.load [(0x8000, 0xEA)]) = .next t) ∧
    (∃ t, step (atBoundary start { quiet with reset := some .keep, nmiEdge := true }) = .next t) ∧
    (∃ t, step (atBoundary start { quiet with nmiEdge := true }) = .next t) ∧
    ∃ t, step (atBoundary start { quiet with irqLine := true }) = .next t :=
  ⟨⟨_, rfl⟩, ⟨_, rfl⟩, ⟨_, rfl⟩, ⟨_, rfl⟩⟩

/-- Everything at once takes the reset; an NMI with the IRQ active; an IRQ; each way of taking none. -/
theorem witness_BoundaryPriority :
    (atBoundary start { reset := some .draw, nmiEdge := true, irqLine := true, defer := true }).boundary.reset = some .draw ∧
    (let s := atBoundary start { quiet with nmiEdge := true, irqLine := true }
     s.boundary.reset = none ∧ (s.nmiPending || s.boundary.nmiEdge) = true ∧ s.boundary.defer = false) ∧
    (let s := atBoundary start { quiet with irqLine := true }
     s.boundary.reset = none ∧ (s.nmiPending || s.boundary.nmiEdge) = false ∧ s.boundary.irqLine = true ∧ s.ipoll = false ∧
       s.boundary.defer = false) ∧
    (let s := atBoundary start { quiet with nmiEdge := true, defer := true }
     s.boundary.reset = none ∧ s.boundary.defer = true) ∧
    (start.boundary.reset = none ∧ (start.nmiPending || start.boundary.nmiEdge) = false ∧ start.boundary.irqLine = false) ∧
    (let s := atBoundary edge { quiet with irqLine := true }
     s.boundary.reset = none ∧ (s.nmiPending || s.boundary.nmiEdge) = false ∧ s.ipoll = true) :=
  ⟨rfl, ⟨rfl, rfl, rfl⟩, ⟨rfl, rfl, rfl, rfl, rfl⟩, ⟨rfl, rfl⟩, ⟨rfl, rfl, rfl⟩, rfl, rfl, rfl⟩

theorem witness_EncodeOfDecode :
    decode [0x00, 0xFF] = .ok (.brk, [0xFF]) ∧ decode [0xF0, 0x80] = .ok (.beq 0x80, []) ∧
      decode [0x7E, 0xFF, 0xFF, 0x00] = .ok (.rorAbsX 0xFFFF, [0x00]) :=
  ⟨rfl, rfl, rfl⟩

/-- The first and the last undocumented byte, and a supplement opcode that is not admitted. -/
theorem witness_UndefinedOpcodesRefused :
    (start.sampled.event start.boundary = none ∧ (start.load [(0x8000, 0x02)]).read 0x8000 = .ok 0x02 ∧
      (start.load [(0x8000, 0xFF)]).read 0x8000 = .ok 0xFF ∧ (0x02 : Byte) ∈ undocumentedOpcodes ∧
      (0xFF : Byte) ∈ undocumentedOpcodes) ∧
    (Instr.inSource .tya = false ∧ (encode .tya).head? = some 0x98 ∧
      ({ start with cfg := { Config.standard with admitSupplement := false } }.load [(0x8000, 0x98)]).read 0x8000 = .ok 0x98) :=
  ⟨⟨rfl, rfl, rfl, by decide, by decide⟩, rfl, rfl, rfl⟩

theorem mixed_inv : mixed.Inv := ⟨rfl, by decide⟩

/-- A store, a reset and an interrupt from a state on the mixed map. -/
theorem witness_StepKeepsInvariant :
    mixed.Inv ∧ (∃ t, step (mixed.load [(0x8000, 0x85), (0x8001, 0x10)]) = .next t) ∧
      (∃ t, step (atBoundary mixed { quiet with reset := some .draw }) = .next t) ∧
      ∃ t, step (atBoundary mixed { quiet with nmiEdge := true }) = .next t :=
  ⟨mixed_inv, ⟨_, rfl⟩, ⟨_, rfl⟩, ⟨_, rfl⟩⟩

/-- A store to the first and to the last ROM address. -/
theorem witness_RomBytesNeverChange :
    mixed.Inv ∧ mixed.classOf 0xC000 = .rom ∧ mixed.classOf 0xFFFF = .rom ∧
      (∃ t, step (mixed.load [(0x8000, 0x8D), (0x8001, 0x00), (0x8002, 0xC0)]) = .next t) ∧
      ∃ t, step (mixed.load [(0x8000, 0x8D), (0x8001, 0xFF), (0x8002, 0xFF)]) = .next t :=
  ⟨mixed_inv, rfl, rfl, ⟨_, rfl⟩, ⟨_, rfl⟩⟩

theorem witness_StatusByteLayout : (0x30 : Byte) &&& 0xCF = (0x00 : Byte) &&& 0xCF ∧ (0x30 : Byte) ≠ 0x00 := by decide

/-- The addresses at both ends of each class of the mixed map. -/
theorem witness_MemoryAccessByClass :
    (mixed.classOf 0x0000 = .ram ∧ mixed.classOf 0x1FFF = .ram ∧ mixed.classOf 0xBFFF = .ram) ∧
      (mixed.classOf 0xC000 = .rom ∧ mixed.classOf 0xFFFF = .rom) ∧
      (mixed.classOf 0x2000 = .device ∧ mixed.classOf 0x3FFF = .device) ∧
      (mixed.classOf 0x4000 = .unmapped ∧ mixed.classOf 0x5FFF = .unmapped) :=
  ⟨⟨rfl, rfl, rfl⟩, ⟨rfl, rfl⟩, ⟨rfl, rfl⟩, rfl, rfl⟩

theorem witness_PushStoresThenDecrements :
    start.accessible (0x0100 + start.sp.setWidth 16) = true ∧ edge.accessible (0x0100 + edge.sp.setWidth 16) = true :=
  ⟨rfl, rfl⟩

theorem witness_PullAfterPush :
    (start.accessible (0x0100 + (start.sp + 1).setWidth 16) = true ∧
      edge.accessible (0x0100 + (edge.sp + 1).setWidth 16) = true) ∧
    (edge.classOf (0x0100 + edge.sp.setWidth 16) = .ram ∧ ∃ t, edge.push 0x5A = .ok t) :=
  ⟨⟨rfl, rfl⟩, rfl, _, rfl⟩

theorem witness_DirectOperandFormulas :
    edge.effectiveAddress (.absoluteX 0xFFFF) = .ok 0x00FE ∧ edge.accessible 0x00FE = true :=
  ⟨rfl, rfl⟩

/-- A pointer at $12FF; at zero-page address $FF by indexing; at zero-page address $FF. -/
theorem witness_PointerAddressFormulas :
    ((0x1200 : Addr).toNat = (0x12FF : Addr).toNat / 256 * 256 + ((0x12FF : Addr).toNat + 1) % 256 ∧
      edge.accessible 0x12FF = true ∧ edge.accessible 0x1200 = true) ∧
    ((0x00FF : Addr).toNat = ((0x00 : Byte).toNat + edge.x.toNat) % 256 ∧
      (0x0000 : Addr).toNat = ((0x00 : Byte).toNat + edge.x.toNat + 1) % 256 ∧ edge.accessible 0x00FF = true ∧
      edge.accessible 0x0000 = true) ∧
    ((0x00FF : Addr).toNat = (0xFF : Byte).toNat ∧ (0x0000 : Addr).toNat = ((0xFF : Byte).toNat + 1) % 256) :=
  ⟨⟨rfl, rfl, rfl⟩, ⟨rfl, rfl, rfl, rfl⟩, rfl, rfl⟩

/-- Arithmetic is binary with D=1 too, under the spec's default parameter. -/
theorem witness_EveryInstructionCompletes :
    start.AllAccessible ∧ start.BinaryArith ∧ edge.flags.d = true ∧ edge.BinaryArith :=
  ⟨start_accessible, fun _ => rfl, rfl, fun _ => rfl⟩

/-- Two transfers, one of them between a register and SP. -/
theorem witness_RegisterTransfers :
    RegName.a ≠ RegName.x ∧ IsTransfer .tax .a .x ∧ (∃ t, exec .tax edge = .next t) ∧ IsTransfer .txs .x .sp :=
  ⟨by decide, fun _ _ h => by cases h; rfl, ⟨_, rfl⟩, fun _ _ h => by cases h; rfl⟩

theorem witness_StopsAreJustified :
    exec (.ldaAbs 0x4000) mixed = .refused (.unmappedAddress 0x4000) ∧
    exec (.incAbs 0x3FFF) mixed = .refused (.deviceAccess 0x3FFF) ∧
    (let s := { edge with cfg := { Config.standard with decimal := .refuse } }
     exec (.sbcImm 0x01) s = .refused (.decimalArithmetic .sbc) ∧ Instr.operand (.sbcImm 0x01) = some (.immediate 0x01) ∧
       s.operandByte (.immediate 0x01) = .ok 0x01 ∧ s.flags.d = true ∧ s.cfg.decimal = .refuse) :=
  ⟨rfl, rfl, rfl, rfl, rfl, rfl, rfl⟩

theorem witness_LoadResult :
    (Instr.operand (.ldaIndY 0xFF) = some (.memory (.indirectY 0xFF)) ∧ edge.operandByte (.memory (.indirectY 0xFF)) = .ok 0x00) ∧
    (Instr.operand (.ldxZpY 0xFF) = some (.memory (.zeroPageY 0xFF)) ∧ edge.operandByte (.memory (.zeroPageY 0xFF)) = .ok 0x00) ∧
    (Instr.operand (.ldyImm 0x80) = some (.immediate 0x80) ∧ edge.operandByte (.immediate 0x80) = .ok 0x80) :=
  ⟨⟨rfl, rfl⟩, ⟨rfl, rfl⟩, rfl, rfl⟩

/-- STA to RAM, STX to a wrapped zero-page address, STY to ROM. -/
theorem witness_StoreResult :
    (mixed.storedRegister (Instr.mnemonic (.staAbs 0x1FFF)) = some 0x00 ∧ mixed.effectiveAddress (.absolute 0x1FFF) = .ok 0x1FFF ∧
      mixed.accessible 0x1FFF = true) ∧
    (edge.storedRegister (Instr.mnemonic (.stxZpY 0xFF)) = some 0xFF ∧ edge.effectiveAddress (.zeroPageY 0xFF) = .ok 0x00FF ∧
      edge.accessible 0x00FF = true) ∧
    (mixed.storedRegister (Instr.mnemonic (.styAbs 0xC000)) = some 0x00 ∧ mixed.effectiveAddress (.absolute 0xC000) = .ok 0xC000 ∧
      mixed.accessible 0xC000 = true) :=
  ⟨⟨rfl, rfl, rfl⟩, ⟨rfl, rfl, rfl⟩, rfl, rfl, rfl⟩

/-- A=$80 plus $FF plus the carry, with D=1: the unsigned sum is $180, the signed sum -128. -/
theorem witness_AdcResult :
    edge.operandByte (.immediate 0xFF) = .ok 0xFF ∧ edge.BinaryArith ∧
      0x180 = edge.a.toNat + (0xFF : Byte).toNat + edge.flags.c.toNat ∧
      (-128 : Int) = edge.a.toInt + (0xFF : Byte).toInt + edge.flags.c.toNat ∧ (0x80 : Byte).toNat = 0x180 % 256 :=
  ⟨rfl, fun _ => rfl, by decide, by decide, by decide⟩

/-- A=$00 minus $01 without borrow: the difference is -1, unsigned and signed. -/
theorem witness_SbcResult :
    let s := { start with flags := { start.flags with c := true } }
    s.operandByte (.immediate 0x01) = .ok 0x01 ∧ s.BinaryArith ∧
      (-1 : Int) = s.a.toNat - (0x01 : Byte).toNat - (1 - s.flags.c.toNat) ∧
      (-1 : Int) = s.a.toInt - (0x01 : Byte).toInt - (1 - s.flags.c.toNat) ∧ ((0xFF : Byte).toNat : Int) = -1 % 256 :=
  ⟨rfl, fun _ => rfl, by decide, by decide, by decide⟩

theorem witness_IncDecMemoryResult :
    (mixed.effectiveAddress (.absolute 0xFFFF) = .ok 0xFFFF ∧ mixed.accessible 0xFFFF = true ∧
      countResult (mixed.peek 0xFFFF) (Instr.mnemonic (.decAbs 0xFFFF)) = some 0xFF) ∧
    countResult 0xFF (Instr.mnemonic (.incZp 0x00)) = some 0x00 :=
  ⟨⟨rfl, rfl, by decide⟩, by decide⟩

theorem witness_IndexRegisterSteps :
    ((0x00 : Byte).toNat : Int) = (edge.x.toNat + 1) % 256 ∧ ((0xFE : Byte).toNat : Int) = (edge.x.toNat - 1) % 256 ∧
      ((0x01 : Byte).toNat : Int) = (edge.y.toNat + 1) % 256 ∧ ((0xFF : Byte).toNat : Int) = (edge.y.toNat - 1) % 256 := by
  decide

theorem witness_LogicResult :
    (Instr.operand (.andIndX 0xFF) = some (.memory (.indirectX 0xFF)) ∧ edge.operandByte (.memory (.indirectX 0xFF)) = .ok 0x00) ∧
    (Instr.operand (.oraImm 0xFF) = some (.immediate 0xFF) ∧ edge.operandByte (.immediate 0xFF) = .ok 0xFF) ∧
    (Instr.operand (.eorAbsX 0xFFFF) = some (.memory (.absoluteX 0xFFFF)) ∧
      edge.operandByte (.memory (.absoluteX 0xFFFF)) = .ok 0x00) :=
  ⟨⟨rfl, rfl⟩, ⟨rfl, rfl⟩, rfl, rfl⟩

theorem witness_ShiftAccumulatorResult :
    shiftResult edge.a edge.flags.c (Instr.mnemonic .aslAcc) = some (0x00, true) ∧
      shiftResult edge.a edge.flags.c (Instr.mnemonic .lsrAcc) = some (0x40, false) ∧
      shiftResult edge.a edge.flags.c (Instr.mnemonic .rolAcc) = some (0x01, true) ∧
      shiftResult edge.a edge.flags.c (Instr.mnemonic .rorAcc) = some (0xC0, false) := by
  decide

theorem witness_ShiftMemoryResult :
    mixed.effectiveAddress (.absolute 0xC000) = .ok 0xC000 ∧ mixed.accessible 0xC000 = true ∧
      shiftResult (mixed.peek 0xC000) mixed.flags.c (Instr.mnemonic (.aslAbs 0xC000)) = some (0x00, false) ∧
      shiftResult 0xFF true (Instr.mnemonic (.lsrZp 0xFF)) = some (0x7F, true) ∧
      shiftResult 0xFF true (Instr.mnemonic (.rolZpX 0xFF)) = some (0xFF, true) ∧
      shiftResult 0x01 true (Instr.mnemonic (.rorAbsX 0xFFFF)) = some (0x80, true) :=
  ⟨rfl, rfl, by decide, by decide, by decide, by decide⟩

theorem witness_RotatesAreNineBitRotations : (∃ t, exec .rolAcc edge = .next t) ∧ ∃ t, exec .rorAcc edge = .next t :=
  ⟨⟨_, rfl⟩, _, rfl⟩

/-- A branch taken backward by 128, one taken across $FFFF, one not taken. -/
theorem witness_BranchResult :
    (branchTest (Instr.mnemonic (.bcs 0x80)) = some (.c, true) ∧ edge.branchTaken (.c, true) = true ∧
      ((0x7F82 : Addr).toNat : Int) = (edge.pc.toNat + 2 + (0x80 : Byte).toInt) % 65536) ∧
    (branchTest (Instr.mnemonic (.bvc 0x7F)) = some (.v, false) ∧ start.branchTaken (.v, false) = true ∧
      ((0x0071 : Addr).toNat : Int) = (({ start with pc := 0xFFF0 } : State).pc.toNat + 2 + (0x7F : Byte).toInt) % 65536) ∧
    (branchTest (Instr.mnemonic (.bne 0xFE)) = some (.z, false) ∧ edge.branchTaken (.z, false) = false ∧
      ((0x8000 : Addr).toNat : Int) = (edge.pc.toNat + 2 + (0xFE : Byte).toInt) % 65536) := by
  decide

theorem witness_JumpIndirectResult :
    (0x0200 : Addr).toNat = (0x02FF : Addr).toNat / 256 * 256 + ((0x02FF : Addr).toNat + 1) % 256 ∧
      start.accessible 0x02FF = true ∧ start.accessible 0x0200 = true ∧
      (0x0000 : Addr).toNat = (start.peek 0x02FF).toNat + 256 * (start.peek 0x0200).toNat :=
  ⟨rfl, rfl, rfl, rfl⟩

/-- SP at both ends of the stack page, a plain RAM stack, and an address that shares no cell with it. -/
theorem witness_JsrResult :
    (start.accessible (stackAddr start.sp) = true ∧ start.accessible (stackAddr (start.sp - 1)) = true) ∧
    (edge.accessible (stackAddr edge.sp) = true ∧ edge.accessible (stackAddr (edge.sp - 1)) = true) ∧
    start.PlainStack ∧ start.cellOf 0x0200 ≠ start.cellOf (stackAddr start.sp) ∧
      start.cellOf 0x0200 ≠ start.cellOf (stackAddr (start.sp - 1)) :=
  ⟨⟨rfl, rfl⟩, ⟨rfl, rfl⟩, start_plainStack, by decide, by decide⟩

theorem witness_RtsResult :
    start.accessible 0x0100 = true ∧ (0x0100 : Addr) = 0x0100 + (start.sp + 1).setWidth 16 ∧
      start.accessible 0x0101 = true ∧ (0x0101 : Addr) = 0x0100 + (start.sp + 2).setWidth 16 ∧
      (0x0001 : Addr).toNat = ((start.peek 0x0100).toNat + 256 * (start.peek 0x0101).toNat + 1) % 65536 :=
  ⟨rfl, by decide, rfl, by decide, rfl⟩

/-- The state JSR leaves is itself such a state. -/
theorem witness_JsrThenRtsReturns :
    start.PlainStack ∧ ∃ t, exec (.jsr 0x1234) start = .next t ∧ t.cfg = start.cfg ∧
      ∀ p : Byte, t.peek (stackAddr p) = t.peek (stackAddr p) :=
  ⟨start_plainStack, _, rfl, rfl, fun _ => rfl⟩

theorem witness_PushInstructions :
    ((0x01FF : Addr) = 0x0100 + start.sp.setWidth 16 ∧ start.accessible 0x01FF = true) ∧
      ((0x0100 : Addr) = 0x0100 + edge.sp.setWidth 16 ∧ edge.accessible 0x0100 = true) :=
  ⟨⟨by decide, rfl⟩, by decide, rfl⟩

theorem witness_PullInstructions :
    (start.load [(0x0100, 0xFF)]).read (0x0100 + (start.sp + 1).setWidth 16) = .ok 0xFF ∧
      edge.read (0x0100 + (edge.sp + 1).setWidth 16) = .ok 0x00 :=
  ⟨rfl, rfl⟩

theorem witness_PhpThenPlpKeepsFlags :
    start.classOf (0x0100 + start.sp.setWidth 16) = .ram ∧ edge.classOf (0x0100 + edge.sp.setWidth 16) = .ram :=
  ⟨rfl, rfl⟩

theorem witness_InterruptMaskInstructions :
    ((∃ t, exec .cli edge = .next t) ∧ edge.flags.i = true) ∧
    (∃ t, exec .sei (atBoundary start { quiet with irqLine := true }) = .next t ∧ start.flags.i = false ∧ t.boundary.reset = none ∧
      (t.nmiPending || t.boundary.nmiEdge) = false ∧ t.boundary.irqLine = true ∧ t.boundary.defer = false) :=
  ⟨⟨⟨_, rfl⟩, rfl⟩, _, rfl, rfl, rfl, rfl, rfl, rfl⟩

theorem witness_CompareResult :
    (edge.operandByte (.immediate 0x80) = .ok 0x80 ∧ edge.comparedRegister (Instr.mnemonic (.cmpImm 0x80)) = some 0x80 ∧
      ((0x00 : Byte).toNat : Int) = ((0x80 : Byte).toNat - (0x80 : Byte).toNat) % 256) ∧
    (edge.comparedRegister (Instr.mnemonic (.cpxImm 0x00)) = some 0xFF ∧
      ((0xFF : Byte).toNat : Int) = ((0xFF : Byte).toNat - (0x00 : Byte).toNat) % 256) ∧
    (edge.comparedRegister (Instr.mnemonic (.cpyImm 0xFF)) = some 0x00 ∧
      ((0x01 : Byte).toNat : Int) = ((0x00 : Byte).toNat - (0xFF : Byte).toNat) % 256) :=
  ⟨⟨rfl, rfl, by decide⟩, ⟨rfl, by decide⟩, rfl, by decide⟩

theorem witness_BitResult :
    Instr.mnemonic (.bitAbs 0xFFFF) = .bit ∧ Instr.operand (.bitAbs 0xFFFF) = some (.memory (.absolute 0xFFFF)) ∧
      edge.operandByte (.memory (.absolute 0xFFFF)) = .ok 0x00 :=
  ⟨rfl, rfl, rfl⟩

theorem witness_NopResult : Instr.mnemonic .nop = .nop := rfl

/-- SP = $01, so that the three pushes wrap; the vector is accessible. -/
theorem witness_BrkResult :
    let s := { edge with sp := 0x01 }
    s.accessible (stackAddr s.sp) = true ∧ s.accessible (stackAddr (s.sp - 1)) = true ∧ s.accessible (stackAddr (s.sp - 2)) = true ∧
      s.accessible 0xFFFE = true ∧ s.accessible 0xFFFF = true :=
  ⟨rfl, rfl, rfl, rfl, rfl⟩

theorem witness_RtiResult :
    start.read (stackAddr (start.sp + 1)) = .ok 0x00 ∧ start.read (stackAddr (start.sp + 2)) = .ok 0x00 ∧
      start.read (stackAddr (start.sp + 3)) = .ok 0x00 :=
  ⟨rfl, rfl, rfl⟩

/-- The state an exception leaves is itself such a state; SP = $FF and $00. -/
theorem witness_ExceptionThenRtiReturns :
    start.PlainStack ∧ (∃ t, start.takeException 0x8002 true irqVector = .ok t ∧ t.cfg = start.cfg) ∧
      ∃ t, { start with sp := 0x00 }.takeException 0xFFFF false nmiVector = .ok t ∧ t.cfg = start.cfg :=
  ⟨start_plainStack, ⟨_, rfl, rfl⟩, _, rfl, rfl⟩

theorem witness_NmiEntryResult :
    let s := atBoundary edge { quiet with nmiEdge := true, irqLine := true }
    s.boundary.reset = none ∧ (s.nmiPending || s.boundary.nmiEdge) = true ∧ s.boundary.defer = false ∧
      s.accessible (stackAddr s.sp) = true ∧ s.accessible (stackAddr (s.sp - 1)) = true ∧
      s.accessible (stackAddr (s.sp - 2)) = true ∧ s.accessible 0xFFFA = true ∧ s.accessible 0xFFFB = true :=
  ⟨rfl, rfl, rfl, rfl, rfl, rfl, rfl, rfl⟩

/-- The live I may be 1 while `Ipoll` is 0, straight after SEI. -/
theorem witness_IrqEntryResult :
    let s := atBoundary { edge with ipoll := false } { quiet with irqLine := true }
    s.boundary.reset = none ∧ (s.nmiPending || s.boundary.nmiEdge) = false ∧ s.boundary.irqLine = true ∧ s.ipoll = false ∧
      s.boundary.defer = false ∧ s.accessible (stackAddr s.sp) = true ∧ s.accessible (stackAddr (s.sp - 1)) = true ∧
      s.accessible (stackAddr (s.sp - 2)) = true ∧ s.accessible 0xFFFE = true ∧ s.accessible 0xFFFF = true :=
  ⟨rfl, rfl, rfl, rfl, rfl, rfl, rfl, rfl, rfl, rfl⟩

theorem witness_ResetTaken :
    (let s := atBoundary edge { quiet with reset := some .keep, nmiEdge := true }
     s.boundary.reset = some .keep ∧ s.accessible 0xFFFC = true ∧ s.accessible 0xFFFD = true) ∧
    (let s := atBoundary edge { quiet with reset := some .draw }
     s.boundary.reset = some .draw ∧ s.accessible 0xFFFC = true ∧ s.accessible 0xFFFD = true) :=
  ⟨⟨rfl, rfl, rfl⟩, rfl, rfl, rfl⟩

theorem witness_IpollAfterEveryStep :
    (∃ t, exec .cli edge = .next t) ∧ (∃ t, exec .sei start = .next t) ∧ (∃ t, exec .plp edge = .next t) ∧
      (∃ t, exec .brk start = .next t) ∧ (∃ t, exec .rti start = .next t) ∧
      (∃ t, start.takeEvent (.reset .keep) = .ok t) ∧ (∃ t, start.takeEvent .nmi = .ok t) ∧ ∃ t, start.takeEvent .irq = .ok t :=
  ⟨⟨_, rfl⟩, ⟨_, rfl⟩, ⟨_, rfl⟩, ⟨_, rfl⟩, ⟨_, rfl⟩, ⟨_, rfl⟩, ⟨_, rfl⟩, _, rfl⟩

theorem witness_FlagFrame :
    (∃ t, exec (.incZp 0x00) edge = .next t) ∧ FlagName.c ∉ flagsAffected (Instr.mnemonic (.incZp 0x00)) ∧
      (∃ t, exec .txs edge = .next t) ∧ FlagName.n ∉ flagsAffected (Instr.mnemonic .txs) :=
  ⟨⟨_, rfl⟩, by decide, ⟨_, rfl⟩, by decide⟩

theorem witness_RegisterFrame :
    (∃ t, exec .aslAcc edge = .next t) ∧ RegName.x ∉ registersWritten .aslAcc ∧
      (∃ t, exec (.aslZp 0xFF) edge = .next t) ∧ RegName.a ∉ registersWritten (.aslZp 0xFF) :=
  ⟨⟨_, rfl⟩, by decide, ⟨_, rfl⟩, by decide⟩

theorem witness_MemoryFrame_register :
    (∃ t, exec (.cmpImm 0x00) edge = .next t) ∧ edge.storeTargets (.cmpImm 0x00) = .ok [] := ⟨⟨_, rfl⟩, rfl⟩

theorem witness_MemoryFrame_memory :
    (∃ t, exec (.rolAbsX 0xFFFF) edge = .next t) ∧ edge.storeTargets (.rolAbsX 0xFFFF) = .ok [0x00FE] :=
  ⟨⟨_, rfl⟩, rfl⟩

theorem witness_MemoryFrame_jsr :
    (∃ t, exec (.jsr 0x0000) edge = .next t) ∧ edge.storeTargets (.jsr 0x0000) = .ok [0x0100, 0x01FF] :=
  ⟨⟨_, rfl⟩, rfl⟩

theorem witness_MemoryFrame_brk :
    (∃ t, exec .brk edge = .next t) ∧ edge.storeTargets .brk = .ok [0x0100, 0x01FF, 0x01FE] :=
  ⟨⟨_, rfl⟩, rfl⟩

theorem witness_MemoryFrame_elsewhere :
    ∀ addr ∈ [(0x0100 : Addr), 0x01FF, 0x01FE], edge.cellOf 0x0101 ≠ edge.cellOf addr := by
  simp only [List.forall_mem_cons, List.not_mem_nil, false_implies, implies_true, and_true]
  decide

/-- An instruction that stores to no, one, two and three addresses. -/
theorem witness_MemoryFrame :
    ((∃ t, exec (.cmpImm 0x00) edge = .next t) ∧ edge.storeTargets (.cmpImm 0x00) = .ok []) ∧
    ((∃ t, exec (.rolAbsX 0xFFFF) edge = .next t) ∧ edge.storeTargets (.rolAbsX 0xFFFF) = .ok [0x00FE]) ∧
    ((∃ t, exec (.jsr 0x0000) edge = .next t) ∧ edge.storeTargets (.jsr 0x0000) = .ok [0x0100, 0x01FF]) ∧
    ((∃ t, exec .brk edge = .next t) ∧ edge.storeTargets .brk = .ok [0x0100, 0x01FF, 0x01FE]) ∧
      ∀ addr ∈ [(0x0100 : Addr), 0x01FF, 0x01FE], edge.cellOf 0x0101 ≠ edge.cellOf addr :=
  ⟨witness_MemoryFrame_register, witness_MemoryFrame_memory, witness_MemoryFrame_jsr, witness_MemoryFrame_brk,
    witness_MemoryFrame_elsewhere⟩

theorem witness_PcAdvances :
    (∃ t, exec (.ldaAbs 0x0000) { edge with pc := 0xFFFE } = .next t) ∧ branchTest (Instr.mnemonic (.ldaAbs 0x0000)) = none ∧
      Instr.mnemonic (.ldaAbs 0x0000) ∉ [Mnemonic.jmp, .jsr, .rts, .brk, .rti] :=
  ⟨⟨_, rfl⟩, by decide, by decide⟩

/-- A single figure, and a range form that does and one that does not cross a page. -/
theorem witness_CycleCounts :
    ((∃ t, exec (.staAbsX 0x12FF) edge = .next t) ∧ cycleEntry (.staAbsX 0x12FF) = some (.fixed 5)) ∧
    ((∃ t, exec (.ldaAbsX 0x1201) edge = .next t) ∧ cycleEntry (.ldaAbsX 0x1201) = some (.range 4) ∧
      edge.crossesPage (.absoluteX 0x1201) = true) ∧
    edge.crossesPage (.absoluteX 0x1200) = false :=
  ⟨⟨⟨_, rfl⟩, rfl⟩, ⟨⟨_, rfl⟩, rfl, by decide⟩, by decide⟩

theorem witness_PageCrossingMeansAnotherPage : edge.zeroPagePointer 0xFF = .ok 0x0000 := rfl

theorem witness_CyclesNotObservable :
    (∃ t, step (start.load [(0x8000, 0xEA)]) = .next t) ∧
      step (mixed.load [(0x8000, 0xAD), (0x8002, 0x50)]) = .refused (.unmappedAddress 0x5000) ∧
      step (start.load [(0x8000, 0x02)]) = .refused (.undefinedOpcode 0x02) :=
  ⟨⟨_, rfl⟩, rfl, rfl⟩

end Sys2Proof.Tests
end

section
/-! SUPPORT. Which opcode bytes a step refuses: the bytes without a row, which are those R69 lists, and the rows that are
not admitted; and the settling of the statement about them. -/

namespace Sys2Proof.Laws.OpcodeRow

open Sys2Proof Sys2Proof.Machine

/-- Every instruction has its row of the opcode table, by the lemma of its constructor. -/
theorem statement_of_instr : ∀ i : Instr, Statement i
  | .ldaImm v => ldaImm v | .ldaZp b => ldaZp b | .ldaZpX b => ldaZpX b | .ldaAbs addr => ldaAbs addr
  | .ldaAbsX addr => ldaAbsX addr | .ldaAbsY addr => ldaAbsY addr | .ldaIndX b => ldaIndX b | .ldaIndY b => ldaIndY b
  | .staZp b => staZp b | .staZpX b => staZpX b | .staAbs addr => staAbs addr | .staAbsX addr => staAbsX addr
  | .staAbsY addr => staAbsY addr | .staIndX b => staIndX b | .staIndY b => staIndY b | .ldxImm v => ldxImm v
  | .ldxZp b => ldxZp b | .ldxZpY b => ldxZpY b | .ldxAbs addr => ldxAbs addr | .ldxAbsY addr => ldxAbsY addr
  | .ldyImm v => ldyImm v | .ldyZp b => ldyZp b | .ldyZpX b => ldyZpX b | .ldyAbs addr => ldyAbs addr
  | .ldyAbsX addr => ldyAbsX addr | .stxZp b => stxZp b | .stxZpY b => stxZpY b | .stxAbs addr => stxAbs addr
  | .styZp b => styZp b | .styZpX b => styZpX b | .styAbs addr => styAbs addr | .adcImm v => adcImm v
  | .adcZp b => adcZp b | .adcZpX b => adcZpX b | .adcAbs addr => adcAbs addr | .adcAbsX addr => adcAbsX addr
  | .adcAbsY addr => adcAbsY addr | .adcIndX b => adcIndX b | .adcIndY b => adcIndY b | .sbcImm v => sbcImm v
  | .sbcZp b => sbcZp b | .sbcZpX b => sbcZpX b | .sbcAbs addr => sbcAbs addr | .sbcAbsX addr => sbcAbsX addr
  | .sbcAbsY addr => sbcAbsY addr | .sbcIndX b => sbcIndX b | .sbcIndY b => sbcIndY b | .incZp b => incZp b
  | .incZpX b => incZpX b | .incAbs addr => incAbs addr | .incAbsX addr => incAbsX addr | .decZp b => decZp b
  | .decZpX b => decZpX b | .decAbs addr => decAbs addr | .decAbsX addr => decAbsX addr | .inx => inx | .dex => dex
  | .iny => iny | .dey => dey | .andImm v => andImm v | .andZp b => andZp b | .andZpX b => andZpX b
  | .andAbs addr => andAbs addr | .andAbsX addr => andAbsX addr | .andAbsY addr => andAbsY addr
  | .andIndX b => andIndX b | .andIndY b => andIndY b | .oraImm v => oraImm v | .oraZp b => oraZp b
  | .oraZpX b => oraZpX b | .oraAbs addr => oraAbs addr | .oraAbsX addr => oraAbsX addr
  | .oraAbsY addr => oraAbsY addr | .oraIndX b => oraIndX b | .oraIndY b => oraIndY b | .eorImm v => eorImm v
  | .eorZp b => eorZp b | .eorZpX b => eorZpX b | .eorAbs addr => eorAbs addr | .eorAbsX addr => eorAbsX addr
  | .eorAbsY addr => eorAbsY addr | .eorIndX b => eorIndX b | .eorIndY b => eorIndY b | .aslAcc => aslAcc
  | .aslZp b => aslZp b | .aslZpX b => aslZpX b | .aslAbs addr => aslAbs addr | .aslAbsX addr => aslAbsX addr
  | .lsrAcc => lsrAcc | .lsrZp b => lsrZp b | .lsrZpX b => lsrZpX b | .lsrAbs addr => lsrAbs addr
  | .lsrAbsX addr => lsrAbsX addr | .rolAcc => rolAcc | .rolZp b => rolZp b | .rolZpX b => rolZpX b
  | .rolAbs addr => rolAbs addr | .rolAbsX addr => rolAbsX addr | .rorAcc => rorAcc | .rorZp b => rorZp b
  | .rorZpX b => rorZpX b | .rorAbs addr => rorAbs addr | .rorAbsX addr => rorAbsX addr | .bcc off => bcc off
  | .bcs off => bcs off | .beq off => beq off | .bmi off => bmi off | .bne off => bne off | .bpl off => bpl off
  | .bvc off => bvc off | .bvs off => bvs off | .jmpAbs addr => jmpAbs addr | .jmpInd ptr => jmpInd ptr
  | .jsr addr => jsr addr | .rts => rts | .pha => pha | .php => php | .pla => pla | .plp => plp | .tsx => tsx
  | .txs => txs | .clc => clc | .sec => sec | .cli => cli | .sei => sei | .clv => clv | .cld => cld | .sed => sed
  | .cmpImm v => cmpImm v | .cmpZp b => cmpZp b | .cmpZpX b => cmpZpX b | .cmpAbs addr => cmpAbs addr
  | .cmpAbsX addr => cmpAbsX addr | .cmpAbsY addr => cmpAbsY addr | .cmpIndX b => cmpIndX b | .cmpIndY b => cmpIndY b
  | .cpxImm v => cpxImm v | .cpxZp b => cpxZp b | .cpxAbs addr => cpxAbs addr | .cpyImm v => cpyImm v
  | .cpyZp b => cpyZp b | .cpyAbs addr => cpyAbs addr | .bitZp b => bitZp b | .bitAbs addr => bitAbs addr
  | .nop => nop | .brk => brk | .rti => rti | .tax => tax | .tay => tay | .txa => txa | .tya => tya

end Sys2Proof.Laws.OpcodeRow

namespace Sys2Proof.Machine

/-! ### Rows of the opcode table -/

/-- The bytes without a row are the bytes that no row of the table carries. -/
theorem lookupOpcode_eq_none (op : Byte) : lookupOpcode op = none ↔ op ∉ opcodeTable.map Row.opcode := by
  simp [lookupOpcode, List.find?_eq_none]

/-- A list of bytes as one number, with a bit for each byte value, so that a fact about all 256 values is one equation
of numbers. -/
def byteMask : List Byte → Nat
  | [] => 0
  | b :: bs => 2 ^ b.toNat ||| byteMask bs

theorem testBit_byteMask (bs : List Byte) (op : Byte) : (byteMask bs).testBit op.toNat = decide (op ∈ bs) := by
  induction bs with
  | nil => simp [byteMask]
  | cons b bs ih => simp [byteMask, ih, Nat.testBit_two_pow, BitVec.toNat_inj, eq_comm]

theorem byteMask_append (bs cs : List Byte) : byteMask (bs ++ cs) = byteMask bs ||| byteMask cs := by
  induction bs with
  | nil => simp [byteMask]
  | cons b bs ih => simp [byteMask, ih, Nat.or_assoc]

/-- The table and the list of R69 divide the 256 byte values between them. -/
theorem byteMask_opcodes_xor_undocumented :
    byteMask (opcodeTable.map Row.opcode) ^^^ byteMask undocumentedOpcodes = 2 ^ 256 - 1 := by
  simp only [opcodeTable, List.map_append, byteMask_append]
  decide

theorem not_mem_opcodes_iff_mem_undocumented (op : Byte) :
    op ∉ opcodeTable.map Row.opcode ↔ op ∈ undocumentedOpcodes := by
  have hbit := congrArg (Nat.testBit · op.toNat) byteMask_opcodes_xor_undocumented
  simp only [Nat.testBit_xor, testBit_byteMask, Nat.testBit_two_pow_sub_one, op.isLt, decide_true] at hbit
  simpa [not_iff] using hbit

/-- The decoder has no row for exactly the bytes that R69 lists. -/
theorem lookupOpcode_eq_none_iff_undocumented (op : Byte) : lookupOpcode op = none ↔ op ∈ undocumentedOpcodes :=
  (lookupOpcode_eq_none op).trans (not_mem_opcodes_iff_mem_undocumented op)

/-- The row that an instruction's opcode byte selects has the instruction's mark of the source document. -/
theorem inSource_of_lookupOpcode {i : Instr} {op : Byte} {row : Row} (hop : (encode i).head? = some op)
    (hrow : lookupOpcode op = some row) : row.inSource = i.inSource := by
  obtain ⟨row', hrow', -, -, hsource⟩ := Laws.OpcodeRow.statement_of_instr i
  rw [hop, Option.bind_some, hrow, Option.some.injEq] at hrow'
  rw [hrow', hsource]

/-! ### The refusal of an opcode byte -/

@[simp] theorem State.sampled_read (s : State) (addr : Addr) : s.sampled.read addr = s.read addr :=
  State.read_congr s.sampled_cfg addr (s.sampled_peek addr)

@[simp] theorem runFetched_error (s : State) (r : Refusal) : runFetched s (.error r) = .refused r := rfl

/-- A fetch refuses an opcode byte that has no row, and one whose row is not admitted (30_encoding.md R52 (3)). -/
theorem State.fetch_eq_undefinedOpcode {s : State} {op : Byte} (hread : s.read s.pc = .ok op)
    (hrow : ∀ row, lookupOpcode op = some row → (row.inSource || s.cfg.admitSupplement) = false) :
    s.fetch = .error (.undefinedOpcode op) := by
  unfold State.fetch
  simp only [hread, bind, Except.bind]
  cases hlookup : lookupOpcode op with
  | none => rfl
  | some row => simp only [hrow row hlookup]

/-- Where no event is taken, a step refuses the opcode bytes that its fetch refuses. -/
theorem step_eq_undefinedOpcode {s : State} {op : Byte} (hevent : s.sampled.event s.boundary = none)
    (hread : s.read s.pc = .ok op)
    (hrow : ∀ row, lookupOpcode op = some row → (row.inSource || s.cfg.admitSupplement) = false) :
    step s = .refused (.undefinedOpcode op) := by
  have hfetch : s.sampled.fetch = .error (.undefinedOpcode op) :=
    State.fetch_eq_undefinedOpcode (by simpa using hread) (by simpa using hrow)
  simp [step, hevent, hfetch]

end Sys2Proof.Machine

open Sys2Proof Sys2Proof.Machine

/-- Settles O7: both refusals are the fetch's refusal of a byte without an admitted row. -/
theorem undefinedOpcodesRefused : Obligations.UndefinedOpcodesRefused := by
  refine ⟨lookupOpcode_eq_none_iff_undocumented, fun s op hevent hread =>
    ⟨fun hop => ?_, fun i hadmit hsource henc => ?_⟩⟩
  · refine step_eq_undefinedOpcode hevent hread fun row hrow => ?_
    have hnone := (lookupOpcode_eq_none_iff_undocumented op).2 hop
    exact absurd (hnone.symm.trans hrow) nofun
  · refine step_eq_undefinedOpcode hevent hread fun row hrow => ?_
    rw [inSource_of_lookupOpcode henc hrow, hsource, hadmit, Bool.or_false]
end

section
/-! SUPPORT. What an instruction leaves unchanged: one rule for each operation that a meaning is made of, one lemma for each
shape of instruction, and `exec_changes`, which collects them over all instructions; and the settling of the statements about
flags, registers and PC that follow from it. -/

namespace Sys2Proof.Machine

/-! ### Flags -/

/-- The flags outside `fs` have the same value in `g` as in `f`. -/
def Flags.SameExcept (fs : List FlagName) (f g : Flags) : Prop := ∀ name ∉ fs, g.get name = f.get name

/-- The six flags, one by one: each is listed or the same. -/
theorem Flags.sameExcept_iff (fs : List FlagName) (f g : Flags) :
    f.SameExcept fs g ↔ (FlagName.n ∉ fs → g.n = f.n) ∧ (FlagName.v ∉ fs → g.v = f.v) ∧ (FlagName.d ∉ fs → g.d = f.d) ∧
      (FlagName.i ∉ fs → g.i = f.i) ∧ (FlagName.z ∉ fs → g.z = f.z) ∧ (FlagName.c ∉ fs → g.c = f.c) := by
  constructor
  · exact fun h => ⟨h .n, h .v, h .d, h .i, h .z, h .c⟩
  · rintro ⟨hn, hv, hd, hi, hz, hc⟩ (_ | _ | _ | _ | _ | _)
    exacts [hn, hv, hd, hi, hz, hc]

theorem Flags.sameExcept_all (f g : Flags) : f.SameExcept [.n, .v, .d, .i, .z, .c] g := by
  simp [sameExcept_iff]

theorem Flags.setNZ_sameExcept (f : Flags) (v : Byte) : f.SameExcept [.n, .z] (f.setNZ v) := by
  simp [sameExcept_iff, setNZ]

theorem Flags.setV_sameExcept (f : Flags) (p : Bool) : f.SameExcept [.v] { f with v := p } := by
  simp [sameExcept_iff]

theorem Flags.setD_sameExcept (f : Flags) (p : Bool) : f.SameExcept [.d] { f with d := p } := by
  simp [sameExcept_iff]

theorem Flags.setI_sameExcept (f : Flags) (p : Bool) : f.SameExcept [.i] { f with i := p } := by
  simp [sameExcept_iff]

theorem Flags.setC_sameExcept (f : Flags) (p : Bool) : f.SameExcept [.c] { f with c := p } := by
  simp [sameExcept_iff]

theorem Flags.compare_sameExcept (f : Flags) (reg m : Byte) : f.SameExcept [.n, .z, .c] (f.compare reg m) := by
  simp [sameExcept_iff, compare, setNZ]

theorem Flags.bitTest_sameExcept (f : Flags) (a m : Byte) : f.SameExcept [.n, .v, .z] (f.bitTest a m) := by
  simp [sameExcept_iff, bitTest]

theorem addFlags_sameExcept (a m : Byte) (f : Flags) : f.SameExcept [.n, .v, .z, .c] (addFlags a m f).2 := by
  simp [Flags.sameExcept_iff, addFlags, Flags.setNZ]

theorem subFlags_sameExcept (a m : Byte) (f : Flags) : f.SameExcept [.n, .v, .z, .c] (subFlags a m f).2 :=
  addFlags_sameExcept a (m ^^^ 0xFF) f

theorem shiftLeft_sameExcept (v : Byte) (f : Flags) : f.SameExcept [.n, .z, .c] (shiftLeft v f).2 := by
  simp [Flags.sameExcept_iff, shiftLeft, Flags.setNZ]

theorem shiftRight_sameExcept (v : Byte) (f : Flags) : f.SameExcept [.n, .z, .c] (shiftRight v f).2 := by
  simp [Flags.sameExcept_iff, shiftRight, Flags.setNZ]

theorem rotateLeft_sameExcept (v : Byte) (f : Flags) : f.SameExcept [.n, .z, .c] (rotateLeft v f).2 := by
  simp [Flags.sameExcept_iff, rotateLeft, Flags.setNZ]

theorem rotateRight_sameExcept (v : Byte) (f : Flags) : f.SameExcept [.n, .z, .c] (rotateRight v f).2 := by
  simp [Flags.sameExcept_iff, rotateRight, Flags.setNZ]

theorem increment_sameExcept (v : Byte) (f : Flags) : f.SameExcept [.n, .z] (increment v f).2 :=
  f.setNZ_sameExcept (v + 1)

theorem decrement_sameExcept (v : Byte) (f : Flags) : f.SameExcept [.n, .z] (decrement v f).2 :=
  f.setNZ_sameExcept (v - 1)

theorem andOp_sameExcept (a m : Byte) (f : Flags) : f.SameExcept [.n, .z] (andOp a m f).2 := f.setNZ_sameExcept (a &&& m)

theorem orOp_sameExcept (a m : Byte) (f : Flags) : f.SameExcept [.n, .z] (orOp a m f).2 := f.setNZ_sameExcept (a ||| m)

theorem xorOp_sameExcept (a m : Byte) (f : Flags) : f.SameExcept [.n, .z] (xorOp a m f).2 := f.setNZ_sameExcept (a ^^^ m)

/-! ### Registers -/

theorem State.setA_reg (s : State) (v : Byte) {r : RegName} (h : r ≠ .a) : (s.setA v).reg r = s.reg r := by
  cases r with
  | a => exact absurd rfl h
  | x | y | sp => rfl

theorem State.setX_reg (s : State) (v : Byte) {r : RegName} (h : r ≠ .x) : (s.setX v).reg r = s.reg r := by
  cases r with
  | x => exact absurd rfl h
  | a | y | sp => rfl

theorem State.setY_reg (s : State) (v : Byte) {r : RegName} (h : r ≠ .y) : (s.setY v).reg r = s.reg r := by
  cases r with
  | y => exact absurd rfl h
  | a | x | sp => rfl

theorem State.setSp_reg (s : State) (v : Byte) {r : RegName} (h : r ≠ .sp) : (s.setSp v).reg r = s.reg r := by
  cases r with
  | sp => exact absurd rfl h
  | a | x | y => rfl

/-! ### The frame of a computation

`Changes` is built along a computation: `Changes.refl` for the state at its start, then one rule per operation. -/

/-- The state that only the environment and the machine's builder change: the pending NMI, the interrupt line, the coming
inputs, the draw counter and the parameters. -/
def State.SameEnvironment (s t : State) : Prop :=
  t.nmiPending = s.nmiPending ∧ t.irqLine = s.irqLine ∧ t.inputs = s.inputs ∧ t.draws = s.draws ∧ t.cfg = s.cfg

theorem State.SameEnvironment.trans {s t u : State} (h : s.SameEnvironment t) (k : t.SameEnvironment u) :
    s.SameEnvironment u := by
  obtain ⟨hnmi, hirq, hinputs, hdraws, hcfg⟩ := h
  obtain ⟨knmi, kirq, kinputs, kdraws, kcfg⟩ := k
  exact ⟨knmi.trans hnmi, kirq.trans hirq, kinputs.trans hinputs, kdraws.trans hdraws, kcfg.trans hcfg⟩

/-- What lies between `s` and `t`: of the flags only those in `fs` changed, of the byte registers only those in `rs`, nothing
of the environment; and PC is at `pc`, or anywhere where `pc` is `none`. -/
structure Changes (fs : List FlagName) (rs : List RegName) (pc : Option Addr) (s t : State) : Prop where
  flags : s.flags.SameExcept fs t.flags
  reg : ∀ r ∉ rs, t.reg r = s.reg r
  environment : s.SameEnvironment t
  pc : ∀ w ∈ pc, t.pc = w

namespace Changes

theorem refl (s : State) : Changes [] [] (some s.pc) s s :=
  ⟨fun _ _ => rfl, fun _ _ => rfl, ⟨rfl, rfl, rfl, rfl, rfl⟩, fun _ h => Option.some.inj h⟩

variable {fs gs : List FlagName} {rs : List RegName} {pc : Option Addr} {s t : State}

/-- The rule behind the four register writes: `u` is `t` but for the register `r`. -/
theorem writeReg {u : State} {r : RegName} (h : Changes fs rs pc s t) (hreg : ∀ q ≠ r, u.reg q = t.reg q)
    (hflags : u.flags = t.flags) (henv : t.SameEnvironment u) (hpc : u.pc = t.pc) : Changes fs (r :: rs) pc s u where
  flags := hflags ▸ h.flags
  reg q hq := (hreg q (List.ne_of_not_mem_cons hq)).trans (h.reg q (List.not_mem_of_not_mem_cons hq))
  environment := h.environment.trans henv
  pc w hw := hpc.trans (h.pc w hw)

theorem setA (h : Changes fs rs pc s t) (v : Byte) : Changes fs (.a :: rs) pc s (t.setA v) :=
  h.writeReg (fun _ hq => t.setA_reg v hq) rfl ⟨rfl, rfl, rfl, rfl, rfl⟩ rfl

theorem setX (h : Changes fs rs pc s t) (v : Byte) : Changes fs (.x :: rs) pc s (t.setX v) :=
  h.writeReg (fun _ hq => t.setX_reg v hq) rfl ⟨rfl, rfl, rfl, rfl, rfl⟩ rfl

theorem setY (h : Changes fs rs pc s t) (v : Byte) : Changes fs (.y :: rs) pc s (t.setY v) :=
  h.writeReg (fun _ hq => t.setY_reg v hq) rfl ⟨rfl, rfl, rfl, rfl, rfl⟩ rfl

theorem setSp (h : Changes fs rs pc s t) (v : Byte) : Changes fs (.sp :: rs) pc s (t.setSp v) :=
  h.writeReg (fun _ hq => t.setSp_reg v hq) rfl ⟨rfl, rfl, rfl, rfl, rfl⟩ rfl

/-- The flags written count against the flags at the start, whatever was written in between. -/
theorem setFlags (h : Changes fs rs pc s t) {g : Flags} (hg : s.flags.SameExcept gs g) :
    Changes gs rs pc s (t.setFlags g) where
  flags := hg
  reg r hr := by rw [← h.reg r hr]; cases r <;> rfl
  environment := h.environment
  pc := h.pc

theorem poke (h : Changes fs rs pc s t) (addr : Addr) (v : Byte) : Changes fs rs pc s (t.poke addr v) where
  flags := h.flags
  reg r hr := by rw [← h.reg r hr]; cases r <;> rfl
  environment := h.environment
  pc := h.pc

theorem endAt (h : Changes fs rs pc s t) (target : Addr) (cyc : Nat) :
    Changes fs rs (some target) s (t.endAt target cyc) where
  flags := h.flags
  reg r hr := by rw [← h.reg r hr]; cases r <;> rfl
  environment := h.environment
  pc _ hw := Option.some.inj hw

theorem setIpoll (h : Changes fs rs pc s t) (p : Bool) : Changes fs rs pc s (t.setIpoll p) where
  flags := h.flags
  reg r hr := by rw [← h.reg r hr]; cases r <;> rfl
  environment := h.environment
  pc := h.pc

theorem advance (h : Changes fs rs (some s.pc) s t) (len cyc : Nat) :
    Changes fs rs (some (s.pc + BitVec.ofNat 16 len)) s (t.advance len cyc) := by
  rw [← h.pc s.pc rfl]
  exact h.endAt _ cyc

theorem advanceLate (h : Changes fs rs (some s.pc) s t) (iOld : Bool) (len cyc : Nat) :
    Changes fs rs (some (s.pc + BitVec.ofNat 16 len)) s (t.advanceLate iOld len cyc) :=
  (h.advance len cyc).setIpoll iOld

/-- Forget where PC is. -/
theorem anyPc (h : Changes fs rs pc s t) : Changes fs rs none s t :=
  { h with pc := nofun }

end Changes

/-! ### The shapes of instructions -/

section
variable {put : State → Byte → State} {r : RegName} {fs : List FlagName} {o : Operand} {m : AddrMode} {c : Cycles}
  {s t : State}

theorem loadInto_changes (hput : ∀ v, Changes [] [r] (some s.pc) s (put s v)) (h : loadInto put o c s = .next t) :
    Changes [.n, .z] [r] (some (s.pc + BitVec.ofNat 16 (operandLength o))) s t := by
  obtain ⟨v, -, rfl⟩ := (loadInto_eq_next put o c s t).1 h
  exact ((hput v).setFlags (s.flags.setNZ_sameExcept v)).advance _ _

theorem storeAt_changes {v : Byte} (h : storeAt v m c s = .next t) :
    Changes [] [] (some (s.pc + BitVec.ofNat 16 (modeLength m))) s t := by
  obtain ⟨ea, -, -, rfl⟩ := (storeAt_eq_next v m c s t).1 h
  exact ((Changes.refl s).poke ea v).advance _ _

theorem accumulate_changes {f : Byte → Byte → Flags → Byte × Flags} (hf : ∀ a v g, Flags.SameExcept fs g (f a v g).2)
    (h : accumulate f o c s = .next t) :
    Changes fs [.a] (some (s.pc + BitVec.ofNat 16 (operandLength o))) s t := by
  obtain ⟨v, -, rfl⟩ := (accumulate_eq_next f o c s t).1 h
  exact (((Changes.refl s).setA _).setFlags (hf s.a v s.flags)).advance _ _

theorem accumulateBinary_changes {mn : Mnemonic} {f : Byte → Byte → Flags → Byte × Flags}
    (hf : ∀ a v g, Flags.SameExcept fs g (f a v g).2) (h : accumulateBinary mn f o c s = .next t) :
    Changes fs [.a] (some (s.pc + BitVec.ofNat 16 (operandLength o))) s t := by
  obtain ⟨v, -, -, rfl⟩ := (accumulateBinary_eq_next mn f o c s t).1 h
  exact (((Changes.refl s).setA _).setFlags (hf s.a v s.flags)).advance _ _

theorem modifyMemory_changes {f : Byte → Flags → Byte × Flags} (hf : ∀ v g, Flags.SameExcept fs g (f v g).2)
    (h : modifyMemory f m c s = .next t) :
    Changes fs [] (some (s.pc + BitVec.ofNat 16 (modeLength m))) s t := by
  obtain ⟨ea, -, -, rfl⟩ := (modifyMemory_eq_next f m c s t).1 h
  exact (((Changes.refl s).poke ea _).setFlags (hf _ s.flags)).advance _ _

theorem modifyRegister_changes {v : Byte} {f : Byte → Flags → Byte × Flags}
    (hput : ∀ v, Changes [] [r] (some s.pc) s (put s v)) (hf : ∀ v g, Flags.SameExcept fs g (f v g).2)
    (h : modifyRegister put v f s = .next t) : Changes fs [r] (some (s.pc + BitVec.ofNat 16 1)) s t := by
  obtain rfl := (modifyRegister_eq_next put v f s t).1 h
  exact ((hput _).setFlags (hf v s.flags)).advance _ _

theorem compareWith_changes {reg : Byte} (h : compareWith reg o c s = .next t) :
    Changes [.n, .z, .c] [] (some (s.pc + BitVec.ofNat 16 (operandLength o))) s t := by
  obtain ⟨v, -, rfl⟩ := (compareWith_eq_next reg o c s t).1 h
  exact ((Changes.refl s).setFlags (s.flags.compare_sameExcept reg v)).advance _ _

theorem bitTest_changes (h : bitTest o c s = .next t) :
    Changes [.n, .v, .z] [] (some (s.pc + BitVec.ofNat 16 (operandLength o))) s t := by
  obtain ⟨v, -, rfl⟩ := (bitTest_eq_next o c s t).1 h
  exact ((Changes.refl s).setFlags (s.flags.bitTest_sameExcept s.a v)).advance _ _

theorem transferInto_changes {v : Byte} (hput : ∀ v, Changes [] [r] (some s.pc) s (put s v))
    (h : transferInto put v s = .next t) : Changes [.n, .z] [r] (some (s.pc + BitVec.ofNat 16 1)) s t := by
  obtain rfl := (transferInto_eq_next put v s t).1 h
  exact ((hput v).setFlags (s.flags.setNZ_sameExcept v)).advance _ _

theorem writeFlags_changes {g : Flags} (hg : s.flags.SameExcept fs g) (h : writeFlags g s = .next t) :
    Changes fs [] (some (s.pc + BitVec.ofNat 16 1)) s t := by
  obtain rfl := (writeFlags_eq_next g s t).1 h
  exact ((Changes.refl s).setFlags hg).advance _ _

theorem branchIf_changes {cond : Bool} {off : Byte} (h : branchIf cond off s = .next t) : Changes [] [] none s t := by
  obtain ⟨-, rfl⟩ | ⟨-, rfl⟩ := (branchIf_eq_next cond off s t).1 h
  · exact ((Changes.refl s).endAt _ _).anyPc
  · exact ((Changes.refl s).advance _ _).anyPc

/-! ### The instructions with a meaning of their own -/

/-- A meaning in two parts answers a next state only if both parts give a result. -/
theorem exists_of_outcome_bind_eq_next {α : Type} {x : Access α} {f : α → Access State}
    (h : outcome (x >>= f) = .next t) : ∃ a, x = .ok a ∧ f a = .ok t :=
  (access_bind_eq_ok x f t).1 ((outcome_eq_next _ t).1 h)

theorem execJmpInd_changes {ptr : Addr} (h : execJmpInd ptr s = .next t) : Changes [] [] none s t := by
  obtain ⟨target, -, hend⟩ := exists_of_outcome_bind_eq_next h
  obtain rfl := Except.ok.inj hend
  exact ((Changes.refl s).endAt target 5).anyPc

theorem execJsr_changes {addr : Addr} (h : execJsr addr s = .next t) : Changes [] [.sp] none s t := by
  obtain ⟨u, hpush, hend⟩ := exists_of_outcome_bind_eq_next h
  obtain rfl := Except.ok.inj hend
  obtain ⟨-, -, rfl⟩ := (State.pushWord_eq_ok s u _).1 hpush
  exact (((((Changes.refl s).poke _ _).poke _ _).setSp _).endAt addr 6).anyPc

theorem execRts_changes (h : execRts s = .next t) : Changes [] [.sp] none s t := by
  obtain ⟨⟨w, u⟩, hpull, hend⟩ := exists_of_outcome_bind_eq_next h
  obtain rfl := Except.ok.inj hend
  obtain ⟨-, -, -, rfl⟩ := (State.pullWord_eq_ok s u w).1 hpull
  exact (((Changes.refl s).setSp _).endAt (w + 1) 6).anyPc

/-- PHA and PHP: a push, one byte long. -/
theorem push_advance_changes {v : Byte} {u : State} {cyc : Nat} (h : s.push v = .ok u) :
    Changes [] [.sp] (some (s.pc + BitVec.ofNat 16 1)) s (u.advance 1 cyc) := by
  obtain ⟨-, rfl⟩ := (State.push_eq_ok s u v).1 h
  exact (((Changes.refl s).poke _ _).setSp _).advance 1 cyc

theorem execPha_changes (h : execPha s = .next t) : Changes [] [.sp] (some (s.pc + BitVec.ofNat 16 1)) s t := by
  obtain ⟨u, hpush, hend⟩ := exists_of_outcome_bind_eq_next h
  obtain rfl := Except.ok.inj hend
  exact push_advance_changes hpush

theorem execPhp_changes (h : execPhp s = .next t) : Changes [] [.sp] (some (s.pc + BitVec.ofNat 16 1)) s t := by
  obtain ⟨u, hpush, hend⟩ := exists_of_outcome_bind_eq_next h
  obtain rfl := Except.ok.inj hend
  exact push_advance_changes hpush

theorem execPla_changes (h : execPla s = .next t) :
    Changes [.n, .z] [.a, .sp] (some (s.pc + BitVec.ofNat 16 1)) s t := by
  obtain ⟨⟨v, u⟩, hpull, hend⟩ := exists_of_outcome_bind_eq_next h
  obtain rfl := Except.ok.inj hend
  obtain ⟨-, -, rfl⟩ := (State.pull_eq_ok s u v).1 hpull
  exact ((((Changes.refl s).setSp _).setA v).setFlags (s.flags.setNZ_sameExcept v)).advance 1 4

theorem execPlp_changes (h : execPlp s = .next t) :
    Changes [.n, .v, .d, .i, .z, .c] [.sp] (some (s.pc + BitVec.ofNat 16 1)) s t := by
  obtain ⟨⟨v, u⟩, hpull, hend⟩ := exists_of_outcome_bind_eq_next h
  obtain rfl := Except.ok.inj hend
  obtain ⟨-, -, rfl⟩ := (State.pull_eq_ok s u v).1 hpull
  exact (((Changes.refl s).setSp _).setFlags (s.flags.sameExcept_all _)).advanceLate s.flags.i 1 4

/-- CLI and SEI: I is written, and `Ipoll` takes the I of before. -/
theorem setI_advanceLate_changes {p : Bool}
    (h : Host.Outcome.next ((s.setFlags { s.flags with i := p }).advanceLate s.flags.i 1 2) = (.next t : Result)) :
    Changes [.i] [] (some (s.pc + BitVec.ofNat 16 1)) s t := by
  obtain rfl := Host.Outcome.next.inj h
  exact ((Changes.refl s).setFlags (s.flags.setI_sameExcept p)).advanceLate s.flags.i 1 2

theorem State.takeException_changes {ret vector : Addr} {brk : Bool} (h : s.takeException ret brk vector = .ok t) :
    Changes [.i] [.sp] none s t := by
  obtain ⟨-, -, -, -, -, rfl⟩ := (State.takeException_eq_ok s t ret brk vector).1 h
  have hframe := (((((Changes.refl s).poke (stackAddr s.sp) (hiByte ret)).poke (stackAddr (s.sp - 1)) (loByte ret)).poke
    (stackAddr (s.sp - 1 - 1)) (s.flags.toByte brk)).setSp (s.sp - 1 - 1 - 1)).setFlags (s.flags.setI_sameExcept true)
  exact { flags := hframe.flags, reg := hframe.reg, environment := hframe.environment, pc := nofun }

theorem State.returnFromException_changes (h : s.returnFromException = .ok t) :
    Changes [.n, .v, .d, .i, .z, .c] [.sp] none s t := by
  obtain ⟨-, -, -, rfl⟩ := (State.returnFromException_eq_ok s t).1 h
  exact { flags := s.flags.sameExcept_all _, reg := ((Changes.refl s).setSp _).reg, environment := (Changes.refl s).environment,
          pc := nofun }

end

/-! ### All instructions -/

/-- Where an instruction that does not assign PC leaves it: past its bytes (10_state.md R15). `none` for the others. -/
def State.pcAfter (s : State) (i : Instr) : Option Addr :=
  match i.mnemonic with
  | .bcc | .bcs | .beq | .bmi | .bne | .bpl | .bvc | .bvs | .jmp | .jsr | .rts | .brk | .rti => none
  | _ => some (s.pc + BitVec.ofNat 16 (instrLength i))

theorem State.pcAfter_of_not_jump (s : State) {i : Instr} (hbranch : branchTest i.mnemonic = none)
    (hjump : i.mnemonic ∉ [Mnemonic.jmp, .jsr, .rts, .brk, .rti]) :
    s.pcAfter i = some (s.pc + BitVec.ofNat 16 (instrLength i)) := by
  unfold pcAfter
  split
  case h_14 => rfl
  all_goals simp_all [branchTest]

/-- What any instruction may change: the flags of its Flags Affected column, the registers R11 to R14 list for it, and PC.
An arm of the form `(… :)` reads its operand off `h` and is compared with the goal only then. -/
theorem exec_changes {i : Instr} {s t : State} (h : exec i s = .next t) :
    Changes (flagsAffected i.mnemonic) (registersWritten i) (s.pcAfter i) s t := by
  unfold exec at h
  cases i with
  | ldaImm | ldaZp | ldaZpX | ldaAbs | ldaAbsX | ldaAbsY | ldaIndX | ldaIndY =>
    exact (loadInto_changes (Changes.refl s).setA h :)
  | ldxImm | ldxZp | ldxZpY | ldxAbs | ldxAbsY => exact (loadInto_changes (Changes.refl s).setX h :)
  | ldyImm | ldyZp | ldyZpX | ldyAbs | ldyAbsX => exact (loadInto_changes (Changes.refl s).setY h :)
  | staZp | staZpX | staAbs | staAbsX | staAbsY | staIndX | staIndY | stxZp | stxZpY | stxAbs | styZp | styZpX | styAbs =>
    exact (storeAt_changes h :)
  | adcImm | adcZp | adcZpX | adcAbs | adcAbsX | adcAbsY | adcIndX | adcIndY =>
    exact (accumulateBinary_changes addFlags_sameExcept h :)
  | sbcImm | sbcZp | sbcZpX | sbcAbs | sbcAbsX | sbcAbsY | sbcIndX | sbcIndY =>
    exact (accumulateBinary_changes subFlags_sameExcept h :)
  | andImm | andZp | andZpX | andAbs | andAbsX | andAbsY | andIndX | andIndY =>
    exact (accumulate_changes andOp_sameExcept h :)
  | oraImm | oraZp | oraZpX | oraAbs | oraAbsX | oraAbsY | oraIndX | oraIndY =>
    exact (accumulate_changes orOp_sameExcept h :)
  | eorImm | eorZp | eorZpX | eorAbs | eorAbsX | eorAbsY | eorIndX | eorIndY =>
    exact (accumulate_changes xorOp_sameExcept h :)
  | incZp | incZpX | incAbs | incAbsX => exact (modifyMemory_changes increment_sameExcept h :)
  | decZp | decZpX | decAbs | decAbsX => exact (modifyMemory_changes decrement_sameExcept h :)
  | inx => exact (modifyRegister_changes (Changes.refl s).setX increment_sameExcept h :)
  | dex => exact (modifyRegister_changes (Changes.refl s).setX decrement_sameExcept h :)
  | iny => exact (modifyRegister_changes (Changes.refl s).setY increment_sameExcept h :)
  | dey => exact (modifyRegister_changes (Changes.refl s).setY decrement_sameExcept h :)
  | aslAcc => exact (modifyRegister_changes (Changes.refl s).setA shiftLeft_sameExcept h :)
  | lsrAcc => exact (modifyRegister_changes (Changes.refl s).setA shiftRight_sameExcept h :)
  | rolAcc => exact (modifyRegister_changes (Changes.refl s).setA rotateLeft_sameExcept h :)
  | rorAcc => exact (modifyRegister_changes (Changes.refl s).setA rotateRight_sameExcept h :)
  | aslZp | aslZpX | aslAbs | aslAbsX => exact (modifyMemory_changes shiftLeft_sameExcept h :)
  | lsrZp | lsrZpX | lsrAbs | lsrAbsX => exact (modifyMemory_changes shiftRight_sameExcept h :)
  | rolZp | rolZpX | rolAbs | rolAbsX => exact (modifyMemory_changes rotateLeft_sameExcept h :)
  | rorZp | rorZpX | rorAbs | rorAbsX => exact (modifyMemory_changes rotateRight_sameExcept h :)
  | cmpImm | cmpZp | cmpZpX | cmpAbs | cmpAbsX | cmpAbsY | cmpIndX | cmpIndY | cpxImm | cpxZp | cpxAbs | cpyImm | cpyZp
  | cpyAbs => exact (compareWith_changes h :)
  | bitZp | bitAbs => exact (bitTest_changes h :)
  | bcc | bcs | beq | bmi | bne | bpl | bvc | bvs => exact branchIf_changes h
  | jmpAbs addr =>
    obtain rfl := Host.Outcome.next.inj h
    exact ((Changes.refl s).endAt addr 3).anyPc
  | jmpInd => exact execJmpInd_changes h
  | jsr => exact execJsr_changes h
  | rts => exact execRts_changes h
  | pha => exact execPha_changes h
  | php => exact execPhp_changes h
  | pla => exact execPla_changes h
  | plp => exact execPlp_changes h
  | tsx | tax => exact (transferInto_changes (Changes.refl s).setX h :)
  | tay => exact (transferInto_changes (Changes.refl s).setY h :)
  | txa | tya => exact (transferInto_changes (Changes.refl s).setA h :)
  | txs =>
    obtain rfl := Host.Outcome.next.inj h
    exact ((Changes.refl s).setSp s.x).advance 1 2
  | clc | sec => exact (writeFlags_changes (s.flags.setC_sameExcept _) h :)
  | clv => exact (writeFlags_changes (s.flags.setV_sameExcept _) h :)
  | cld | sed => exact (writeFlags_changes (s.flags.setD_sameExcept _) h :)
  | cli | sei => exact setI_advanceLate_changes h
  | nop =>
    obtain rfl := Host.Outcome.next.inj h
    exact (Changes.refl s).advance 1 2
  | brk => exact State.takeException_changes ((outcome_eq_next _ _).1 h)
  | rti => exact State.returnFromException_changes ((outcome_eq_next _ _).1 h)

/-! ### Lengths -/

theorem modeLength_bounds (m : AddrMode) : 1 ≤ modeLength m ∧ modeLength m ≤ 3 := by
  cases m <;> simp [modeLength]

theorem instrLength_bounds (i : Instr) : 1 ≤ instrLength i ∧ instrLength i ≤ 3 := by
  unfold instrLength
  cases i.operand with
  | none => simp
  | some o =>
    cases o with
    | accumulator => simp [operandLength]
    | immediate v => simp [operandLength]
    | memory m => exact modeLength_bounds m

/-- An instruction is encoded in as many bytes as its length says. -/
theorem length_encode (i : Instr) : (encode i).length = instrLength i := by
  obtain ⟨_, -, -, hlength, -⟩ := Laws.OpcodeRow.statement_of_instr i
  exact hlength

end Sys2Proof.Machine

open Sys2Proof Sys2Proof.Machine

/-- Settles O54: the flags part of `exec_changes`. -/
theorem flagFrame : Obligations.FlagFrame :=
  fun _ _ _ f hexec hf => (exec_changes hexec).flags f hf

/-- Settles O55: the register and environment parts of `exec_changes`. -/
theorem registerFrame : Obligations.RegisterFrame :=
  fun _ _ _ hexec => ⟨(exec_changes hexec).reg, (exec_changes hexec).environment⟩

/-- Settles O57: the PC part of `exec_changes`, with the length of the encoding. -/
theorem pcAdvances : Obligations.PcAdvances := by
  intro i s t hexec hbranch hjump
  rw [length_encode]
  refine ⟨?_, instrLength_bounds i⟩
  have hpc : t.pc = s.pc + BitVec.ofNat 16 (instrLength i) :=
    (exec_changes hexec).pc _ (s.pcAfter_of_not_jump hbranch hjump)
  simp [hpc, BitVec.toNat_add]
end

section
/-! SUPPORT. The settling of the statements about the reset state, `setNZ` and the status byte. -/

namespace Sys2Proof.Machine

/-! ### N and Z -/

theorem Flags.setNZ_eq (f : Flags) (v : Byte) : f.setNZ v = { f with n := v.getLsbD 7, z := decide (v = 0x00) } := by
  simp [setNZ, BitVec.msb_eq_getLsbD_last, beq_eq_decide]

/-- N and Z never go together: a byte with bit 7 set is not zero. -/
theorem Flags.setNZ_n_and_z (f : Flags) (v : Byte) : ((f.setNZ v).n && (f.setNZ v).z) = false := by
  have hmsb : v.msb = true → v ≠ 0x00 := by
    rintro h rfl
    exact absurd h (by decide)
  simpa [setNZ] using hmsb

/-! ### The status byte -/

/-- The bits of a pushed status byte, from bit 7 down (10_state.md R16). -/
theorem Flags.getLsbD_toByte (f : Flags) (b : Bool) :
    (f.toByte b).getLsbD 7 = f.n ∧ (f.toByte b).getLsbD 6 = f.v ∧ (f.toByte b).getLsbD 5 = true ∧
      (f.toByte b).getLsbD 4 = b ∧ (f.toByte b).getLsbD 3 = f.d ∧ (f.toByte b).getLsbD 2 = f.i ∧
      (f.toByte b).getLsbD 1 = f.z ∧ (f.toByte b).getLsbD 0 = f.c := by
  obtain ⟨n, v, d, i, z, c⟩ := f
  revert n v d i z c b
  decide

/-- Pulling a pushed status byte gives the flags back. -/
theorem Flags.ofByte_toByte (f : Flags) (b : Bool) : Flags.ofByte (f.toByte b) = f := by
  obtain ⟨hn, hv, -, -, hd, hi, hz, hc⟩ := f.getLsbD_toByte b
  simp only [ofByte, hn, hv, hd, hi, hz, hc]

/-- Bytes that agree under a mask agree at every bit of the mask. -/
theorem getLsbD_eq_of_and_eq {v w mask : Byte} (h : v &&& mask = w &&& mask) {k : Nat} (hk : mask.getLsbD k = true) :
    v.getLsbD k = w.getLsbD k := by
  simpa [hk] using congrArg (BitVec.getLsbD · k) h

/-- Bits 5 and 4 of a pulled byte have no effect (10_state.md R19, R20). -/
theorem Flags.ofByte_congr {v w : Byte} (h : v &&& 0xCF = w &&& 0xCF) : Flags.ofByte v = Flags.ofByte w := by
  simp only [ofByte, Flags.mk.injEq]
  exact ⟨getLsbD_eq_of_and_eq h rfl, getLsbD_eq_of_and_eq h rfl, getLsbD_eq_of_and_eq h rfl, getLsbD_eq_of_and_eq h rfl,
    getLsbD_eq_of_and_eq h rfl, getLsbD_eq_of_and_eq h rfl⟩

end Sys2Proof.Machine

open Sys2Proof Sys2Proof.Machine

/-- Settles O8: the vector of the empty memory is two background bytes, at accessible addresses. -/
theorem stateAfterReset : Obligations.StateAfterReset :=
  ⟨rfl, rfl, rfl, (State.reset.readVector_eq_ok 0xFFFC State.reset.pc).2 ⟨rfl, rfl, rfl⟩⟩

/-- Settles O9: the empty memory is canonical, and one region over all addresses is a map. -/
theorem resetMeetsInvariant : Obligations.ResetMeetsInvariant :=
  ⟨rfl, by decide⟩

/-- Settles O12; $80 pulled has N, $02 has Z, and BIT takes N from the operand but Z from its conjunction with A. -/
theorem setNZRule : Obligations.SetNZRule := by
  refine ⟨Flags.setNZ_eq, Flags.setNZ_n_and_z, fun f => ?_, ⟨0x82, rfl, rfl⟩, Flags.ofByte 0x00, 0x00, 0x80, rfl, rfl⟩
  simp [Flags.setNZ_eq]

/-- Settles O13: the bits one by one, and the masks of a pulled byte. -/
theorem statusByteLayout : Obligations.StatusByteLayout := by
  refine ⟨fun f b => ?_, fun _ => rfl, fun _ _ => Flags.ofByte_congr⟩
  obtain ⟨hn, hv, hfive, hfour, hd, hi, hz, hc⟩ := f.getLsbD_toByte b
  exact ⟨hn, hv, hfive, hfour, hd, hi, hz, hc, f.ofByte_toByte b⟩
end

section
/-! SUPPORT. Memory: what a well-formed map says of the cells that addresses reach, and which stores lead to the next state of an
instruction, an event and a step; and the settling of the statements about memory that follow from it. -/

namespace Sys2Proof

/-! ### Regions -/

/-- The offset of an address of the region into the region's storage lies inside that storage. -/
theorem Region.offset_lt_cells {r : Region} {addr : Addr} (hfirst : r.first.toNat ≤ addr.toNat)
    (hlast : addr.toNat ≤ r.last.toNat) : (addr.toNat - r.first.toNat) % r.span < r.cells := by
  have hoffset : addr.toNat - r.first.toNat < r.last.toNat - r.first.toNat + 1 := by omega
  unfold Region.cells
  split
  next hspan => rwa [hspan, Nat.mod_zero]
  next hspan => exact lt_min (Nat.mod_lt _ (Nat.pos_of_ne_zero hspan)) ((Nat.mod_le _ _).trans_lt hoffset)

theorem Region.wellFormed_iff (r : Region) :
    r.wellFormed = true ↔ r.first.toNat ≤ r.last.toNat ∧ r.base.toNat + r.cells ≤ 65536 := by
  simp [Region.wellFormed]

/-- For a `ram` and a `rom` region the check says that one's cells all come before the other's. -/
theorem Region.storageApart_of_ram_of_rom {r q : Region} (hr : r.cls = .ram) (hq : q.cls = .rom) :
    r.storageApart q = true ↔
      r.base.toNat + r.cells ≤ q.base.toNat ∨ q.base.toNat + q.cells ≤ r.base.toNat := by
  simp [Region.storageApart, hr, hq]

theorem Region.symm_storageApart : Std.Symm fun r q : Region => r.storageApart q = true where
  symm r q h := by
    simp only [Region.storageApart, Bool.or_eq_true, beq_iff_eq, decide_eq_true_eq] at h ⊢
    tauto

/-- In a well-formed map every region is well formed, and any two have the writable storage of one apart from the fixed storage
of the other. -/
theorem regionsWellFormed_spec {rs : List Region} (h : regionsWellFormed rs = true) :
    (∀ r ∈ rs, r.wellFormed = true) ∧ rs.Pairwise fun r q => r.storageApart q = true := by
  induction rs with
  | nil => exact ⟨nofun, .nil⟩
  | cons r rs ih =>
    simp only [regionsWellFormed, Bool.and_eq_true, List.all_eq_true] at h
    obtain ⟨⟨hr, happart⟩, hrs⟩ := h
    obtain ⟨hall, hpair⟩ := ih hrs
    exact ⟨List.forall_mem_cons.2 ⟨hr, hall⟩, .cons (fun q hq => (happart q hq).2) hpair⟩

end Sys2Proof

namespace Sys2Proof.Machine

/-! ### Cells -/

theorem mem_map_of_regionOf {cfg : Config} {addr : Addr} {r : Region} (h : regionOf cfg addr = some r) :
    r ∈ cfg.map ∧ r.first.toNat ≤ addr.toNat ∧ addr.toNat ≤ r.last.toNat :=
  ⟨List.mem_of_find?_eq_some h, by simpa using List.find?_some h⟩

/-- An address of a class other than `unmapped` has its class from a region. -/
theorem State.exists_regionOf {s : State} {addr : Addr} {c : AddrClass} (h : s.classOf addr = c) (hc : c ≠ .unmapped) :
    ∃ r, regionOf s.cfg addr = some r ∧ r.cls = c := by
  unfold State.classOf at h
  cases hr : regionOf s.cfg addr with
  | none => rw [hr] at h; exact absurd h.symm hc
  | some r => rw [hr] at h; exact ⟨r, rfl, h⟩

/-- An address reaches a cell of its region's storage. -/
theorem State.cellOf_bounds {s : State} {addr : Addr} {r : Region} (hmap : s.cfg.wellFormed = true)
    (h : regionOf s.cfg addr = some r) :
    r.base.toNat ≤ s.cellOf addr ∧ s.cellOf addr < r.base.toNat + r.cells := by
  obtain ⟨hmem, hfirst, hlast⟩ := mem_map_of_regionOf h
  obtain ⟨-, hspace⟩ := r.wellFormed_iff.1 ((regionsWellFormed_spec hmap).1 r hmem)
  have hoffset := Region.offset_lt_cells hfirst hlast
  unfold State.cellOf
  rw [h]
  dsimp only
  rw [Nat.mod_eq_of_lt (by omega)]
  omega

/-- Under a well-formed map no `ram` address reaches the cell of a `rom` address. -/
theorem State.cellOf_ne_of_rom_of_ram {s : State} {rom ram : Addr} (hmap : s.cfg.wellFormed = true)
    (hrom : s.classOf rom = .rom) (hram : s.classOf ram = .ram) : s.cellOf rom ≠ s.cellOf ram := by
  obtain ⟨q, hq, hqcls⟩ := State.exists_regionOf hrom nofun
  obtain ⟨r, hr, hrcls⟩ := State.exists_regionOf hram nofun
  have hne : r ≠ q := by
    rintro rfl
    exact absurd (hrcls.symm.trans hqcls) nofun
  have hsymm := Region.symm_storageApart
  have happart := (Region.storageApart_of_ram_of_rom hrcls hqcls).1
    ((regionsWellFormed_spec hmap).2.forall (mem_map_of_regionOf hr).1 (mem_map_of_regionOf hq).1 hne)
  have hqcell := State.cellOf_bounds hmap hq
  have hrcell := State.cellOf_bounds hmap hr
  omega

/-- A store, wherever it goes, leaves the byte a `rom` address reads as. -/
theorem State.peek_poke_of_rom {s : State} {addr b : Addr} (v : Byte) (hmap : s.cfg.wellFormed = true)
    (hrom : s.classOf b = .rom) : (s.poke addr v).peek b = s.peek b := by
  by_cases hram : s.classOf addr = .ram
  · exact s.peek_poke_other addr b v (State.cellOf_ne_of_rom_of_ram hmap hrom hram)
  · exact State.peek_congr (s.poke_cfg addr v) (s.stored_of_not_ram addr v hram) b

/-! ### Stores one after the other -/

/-- The state after bytes are stored at addresses, the first of the list first. -/
def State.pokes (s : State) : List (Addr × Byte) → State
  | [] => s
  | w :: ws => (s.poke w.1 w.2).pokes ws

/-- Whatever every single store keeps, stores one after the other keep. -/
theorem State.pokes_induction {P : State → Prop} (hpoke : ∀ u addr v, P u → P (u.poke addr v)) (ws : List (Addr × Byte))
    {s : State} (h : P s) : P (s.pokes ws) := by
  induction ws generalizing s with
  | nil => exact h
  | cons w ws ih => exact ih (hpoke s w.1 w.2 h)

@[simp] theorem State.pokes_cfg (s : State) (ws : List (Addr × Byte)) : (s.pokes ws).cfg = s.cfg :=
  State.pokes_induction (P := fun u => u.cfg = s.cfg) (fun _ _ _ h => h) ws rfl

theorem State.pokes_inv {s : State} (ws : List (Addr × Byte)) (h : s.Inv) : (s.pokes ws).Inv :=
  State.pokes_induction (fun u addr v ⟨hmem, hmap⟩ => ⟨u.stored_wf addr v hmem, hmap⟩) ws h

theorem State.peek_pokes_of_rom {s : State} {b : Addr} (ws : List (Addr × Byte)) (hmap : s.cfg.wellFormed = true)
    (hrom : s.classOf b = .rom) : (s.pokes ws).peek b = s.peek b := by
  induction ws generalizing s with
  | nil => rfl
  | cons w ws ih =>
    calc (s.pokes (w :: ws)).peek b = (s.poke w.1 w.2).peek b := ih hmap hrom
      _ = s.peek b := State.peek_poke_of_rom w.2 hmap hrom

/-- An address that reaches none of the stored cells reads as before. -/
theorem State.peek_pokes_other {s : State} {b : Addr} {ws : List (Addr × Byte)}
    (h : ∀ addr ∈ ws.map Prod.fst, s.cellOf b ≠ s.cellOf addr) : (s.pokes ws).peek b = s.peek b := by
  induction ws generalizing s with
  | nil => rfl
  | cons w ws ih =>
    obtain ⟨hw, hws⟩ := List.forall_mem_cons.1 h
    calc (s.pokes (w :: ws)).peek b = (s.poke w.1 w.2).peek b := ih hws
      _ = s.peek b := s.peek_poke_other w.1 b w.2 hw

/-! ### The stores of a computation -/

/-- Memory in `t` is that of `s` after stores to the addresses of `targets`, in that order, and to no other. -/
def State.StoresTo (s t : State) (targets : Access (List Addr)) : Prop :=
  ∃ ws, targets = .ok (ws.map Prod.fst) ∧ t.mem = (s.pokes ws).mem

section
variable {s t : State} {o : Operand} {m : AddrMode} {c : Cycles} {put : State → Byte → State}

theorem State.storesTo_nil (h : t.mem = s.mem) : s.StoresTo t (.ok []) :=
  ⟨[], rfl, h⟩

theorem loadInto_mem (hput : ∀ v, (put s v).mem = s.mem) (h : loadInto put o c s = .next t) : t.mem = s.mem := by
  obtain ⟨v, -, rfl⟩ := (loadInto_eq_next put o c s t).1 h
  exact hput v

theorem accumulate_mem {f : Byte → Byte → Flags → Byte × Flags} (h : accumulate f o c s = .next t) : t.mem = s.mem := by
  obtain ⟨v, -, rfl⟩ := (accumulate_eq_next f o c s t).1 h
  rfl

theorem accumulateBinary_mem {mn : Mnemonic} {f : Byte → Byte → Flags → Byte × Flags}
    (h : accumulateBinary mn f o c s = .next t) : t.mem = s.mem := by
  obtain ⟨v, -, -, rfl⟩ := (accumulateBinary_eq_next mn f o c s t).1 h
  rfl

theorem modifyRegister_mem {v : Byte} {f : Byte → Flags → Byte × Flags} (hput : ∀ v, (put s v).mem = s.mem)
    (h : modifyRegister put v f s = .next t) : t.mem = s.mem := by
  obtain rfl := (modifyRegister_eq_next put v f s t).1 h
  exact hput _

theorem compareWith_mem {reg : Byte} (h : compareWith reg o c s = .next t) : t.mem = s.mem := by
  obtain ⟨v, -, rfl⟩ := (compareWith_eq_next reg o c s t).1 h
  rfl

theorem bitTest_mem (h : bitTest o c s = .next t) : t.mem = s.mem := by
  obtain ⟨v, -, rfl⟩ := (bitTest_eq_next o c s t).1 h
  rfl

theorem transferInto_mem {v : Byte} (hput : ∀ v, (put s v).mem = s.mem) (h : transferInto put v s = .next t) :
    t.mem = s.mem := by
  obtain rfl := (transferInto_eq_next put v s t).1 h
  exact hput v

theorem writeFlags_mem {g : Flags} (h : writeFlags g s = .next t) : t.mem = s.mem := by
  obtain rfl := (writeFlags_eq_next g s t).1 h
  rfl

theorem branchIf_mem {cond : Bool} {off : Byte} (h : branchIf cond off s = .next t) : t.mem = s.mem := by
  obtain ⟨-, rfl⟩ | ⟨-, rfl⟩ := (branchIf_eq_next cond off s t).1 h <;> rfl

theorem storeAt_storesTo {v : Byte} (h : storeAt v m c s = .next t) :
    s.StoresTo t (s.operandTarget (some (.memory m))) := by
  obtain ⟨ea, hea, -, rfl⟩ := (storeAt_eq_next v m c s t).1 h
  exact ⟨[(ea, v)], by simp only [State.operandTarget, hea]; rfl, rfl⟩

theorem modifyMemory_storesTo {f : Byte → Flags → Byte × Flags} (h : modifyMemory f m c s = .next t) :
    s.StoresTo t (s.operandTarget (some (.memory m))) := by
  obtain ⟨ea, hea, -, rfl⟩ := (modifyMemory_eq_next f m c s t).1 h
  exact ⟨[(ea, _)], by simp only [State.operandTarget, hea]; rfl, rfl⟩

theorem execJmpInd_mem {ptr : Addr} (h : execJmpInd ptr s = .next t) : t.mem = s.mem := by
  obtain ⟨target, -, hend⟩ := exists_of_outcome_bind_eq_next h
  obtain rfl := Except.ok.inj hend
  rfl

theorem execJsr_storesTo {addr : Addr} (h : execJsr addr s = .next t) :
    s.StoresTo t (.ok [stackAddr s.sp, stackAddr (s.sp - 1)]) := by
  obtain ⟨u, hpush, hend⟩ := exists_of_outcome_bind_eq_next h
  obtain rfl := Except.ok.inj hend
  obtain ⟨-, -, rfl⟩ := (State.pushWord_eq_ok s u _).1 hpush
  exact ⟨[(_, hiByte (s.pc + 2)), (_, loByte (s.pc + 2))], rfl, rfl⟩

theorem execRts_mem (h : execRts s = .next t) : t.mem = s.mem := by
  obtain ⟨⟨w, u⟩, hpull, hend⟩ := exists_of_outcome_bind_eq_next h
  obtain rfl := Except.ok.inj hend
  obtain ⟨-, -, -, rfl⟩ := (State.pullWord_eq_ok s u w).1 hpull
  rfl

/-- PHA and PHP: the push of a byte, and the end of the instruction. -/
theorem push_advance_storesTo {v : Byte} {cyc : Nat}
    (h : outcome (s.push v >>= fun u => pure (u.advance 1 cyc)) = .next t) : s.StoresTo t (.ok [stackAddr s.sp]) := by
  obtain ⟨u, hpush, hend⟩ := exists_of_outcome_bind_eq_next h
  obtain rfl := Except.ok.inj hend
  obtain ⟨-, rfl⟩ := (State.push_eq_ok s u v).1 hpush
  exact ⟨[(_, v)], rfl, rfl⟩

theorem execPla_mem (h : execPla s = .next t) : t.mem = s.mem := by
  obtain ⟨⟨v, u⟩, hpull, hend⟩ := exists_of_outcome_bind_eq_next h
  obtain rfl := Except.ok.inj hend
  obtain ⟨-, -, rfl⟩ := (State.pull_eq_ok s u v).1 hpull
  rfl

theorem execPlp_mem (h : execPlp s = .next t) : t.mem = s.mem := by
  obtain ⟨⟨v, u⟩, hpull, hend⟩ := exists_of_outcome_bind_eq_next h
  obtain rfl := Except.ok.inj hend
  obtain ⟨-, -, rfl⟩ := (State.pull_eq_ok s u v).1 hpull
  rfl

theorem State.takeException_storesTo {ret vector : Addr} {brk : Bool} (h : s.takeException ret brk vector = .ok t) :
    s.StoresTo t (.ok [stackAddr s.sp, stackAddr (s.sp - 1), stackAddr (s.sp - 2)]) := by
  obtain ⟨-, -, -, -, -, rfl⟩ := (State.takeException_eq_ok s t ret brk vector).1 h
  have hsp : s.sp - 2 = s.sp - 1 - 1 := by bv_omega
  rw [hsp]
  exact ⟨[(_, hiByte ret), (_, loByte ret), (_, s.flags.toByte brk)], rfl, rfl⟩

theorem State.returnFromException_mem (h : s.returnFromException = .ok t) : t.mem = s.mem := by
  obtain ⟨-, -, -, rfl⟩ := (State.returnFromException_eq_ok s t).1 h
  rfl

end

/-- The next state of any instruction has the memory of the old one after stores to the instruction's targets. -/
theorem exec_storesTo {i : Instr} {s t : State} (h : exec i s = .next t) : s.StoresTo t (s.storeTargets i) := by
  unfold exec at h
  cases i with
  | ldaImm | ldaZp | ldaZpX | ldaAbs | ldaAbsX | ldaAbsY | ldaIndX | ldaIndY | ldxImm | ldxZp | ldxZpY | ldxAbs | ldxAbsY
  | ldyImm | ldyZp | ldyZpX | ldyAbs | ldyAbsX => exact State.storesTo_nil (loadInto_mem (fun _ => rfl) h)
  | staZp | staZpX | staAbs | staAbsX | staAbsY | staIndX | staIndY | stxZp | stxZpY | stxAbs | styZp | styZpX | styAbs =>
    exact (storeAt_storesTo h :)
  | adcImm | adcZp | adcZpX | adcAbs | adcAbsX | adcAbsY | adcIndX | adcIndY | sbcImm | sbcZp | sbcZpX | sbcAbs | sbcAbsX
  | sbcAbsY | sbcIndX | sbcIndY => exact State.storesTo_nil (accumulateBinary_mem h)
  | andImm | andZp | andZpX | andAbs | andAbsX | andAbsY | andIndX | andIndY | oraImm | oraZp | oraZpX | oraAbs | oraAbsX
  | oraAbsY | oraIndX | oraIndY | eorImm | eorZp | eorZpX | eorAbs | eorAbsX | eorAbsY | eorIndX | eorIndY =>
    exact State.storesTo_nil (accumulate_mem h)
  | incZp | incZpX | incAbs | incAbsX | decZp | decZpX | decAbs | decAbsX | aslZp | aslZpX | aslAbs | aslAbsX | lsrZp
  | lsrZpX | lsrAbs | lsrAbsX | rolZp | rolZpX | rolAbs | rolAbsX | rorZp | rorZpX | rorAbs | rorAbsX =>
    exact (modifyMemory_storesTo h :)
  | inx | dex | iny | dey | aslAcc | lsrAcc | rolAcc | rorAcc =>
    exact State.storesTo_nil (modifyRegister_mem (fun _ => rfl) h)
  | cmpImm | cmpZp | cmpZpX | cmpAbs | cmpAbsX | cmpAbsY | cmpIndX | cmpIndY | cpxImm | cpxZp | cpxAbs | cpyImm | cpyZp
  | cpyAbs => exact State.storesTo_nil (compareWith_mem h)
  | bitZp | bitAbs => exact State.storesTo_nil (bitTest_mem h)
  | bcc | bcs | beq | bmi | bne | bpl | bvc | bvs => exact State.storesTo_nil (branchIf_mem h)
  | tsx | tax | tay | txa | tya => exact State.storesTo_nil (transferInto_mem (fun _ => rfl) h)
  | clc | sec | clv | cld | sed => exact State.storesTo_nil (writeFlags_mem h)
  | jmpAbs | txs | cli | sei | nop =>
    obtain rfl := Host.Outcome.next.inj h
    exact State.storesTo_nil rfl
  | jmpInd => exact State.storesTo_nil (execJmpInd_mem h)
  | jsr => exact execJsr_storesTo h
  | rts => exact State.storesTo_nil (execRts_mem h)
  | pha | php => exact push_advance_storesTo h
  | pla => exact State.storesTo_nil (execPla_mem h)
  | plp => exact State.storesTo_nil (execPlp_mem h)
  | brk => exact State.takeException_storesTo ((outcome_eq_next _ _).1 h)
  | rti => exact State.storesTo_nil (State.returnFromException_mem ((outcome_eq_next _ _).1 h))

/-! ### The stores of a step -/

/-- `t` differs from `s`, of memory and the parameters, by stores only. -/
def State.OnlyStores (s t : State) : Prop := t.cfg = s.cfg ∧ ∃ ws, t.mem = (s.pokes ws).mem

theorem State.StoresTo.onlyStores {s t : State} {targets : Access (List Addr)} (h : s.StoresTo t targets)
    (hcfg : t.cfg = s.cfg) : s.OnlyStores t :=
  ⟨hcfg, h.imp fun _ => And.right⟩

theorem Changes.cfg {fs : List FlagName} {rs : List RegName} {pc : Option Addr} {s t : State}
    (h : Changes fs rs pc s t) : t.cfg = s.cfg := by
  obtain ⟨-, -, -, -, hcfg⟩ := h.environment
  exact hcfg

theorem State.takeException_onlyStores {s t : State} {ret vector : Addr} {brk : Bool}
    (h : s.takeException ret brk vector = .ok t) : s.OnlyStores t :=
  (State.takeException_storesTo h).onlyStores (State.takeException_changes h).cfg

/-- An interrupt entry stores its frame; a reset stores nothing (70_reset_and_hazards.md R210). -/
theorem State.takeEvent_onlyStores {s t : State} {e : Event} (h : s.takeEvent e = .ok t) : s.OnlyStores t := by
  cases e with
  | reset r =>
    obtain ⟨-, -, rfl⟩ := (s.resetSequence_eq_ok t r).1 h
    exact ⟨s.resetRegisters_cfg r, [], s.resetRegisters_mem r⟩
  | nmi =>
    obtain ⟨u, hentry, rfl⟩ := (s.nmiEntry_eq_ok t).1 h
    exact (State.takeException_onlyStores hentry :)
  | irq => exact State.takeException_onlyStores h

theorem step_onlyStores {s t : State} (h : step s = .next t) : s.sampled.OnlyStores t := by
  obtain ⟨e, -, htake⟩ | ⟨-, i, -, hexec⟩ := (step_eq_next s t).1 h
  · exact State.takeEvent_onlyStores htake
  · exact (exec_storesTo hexec).onlyStores (exec_changes hexec).cfg

theorem State.Inv.sampled {s : State} (h : s.Inv) : s.sampled.Inv := by
  simpa [State.Inv] using h

/-! ### The invariant and ROM -/

theorem State.OnlyStores.inv {s t : State} (h : s.OnlyStores t) (hs : s.Inv) : t.Inv := by
  obtain ⟨hcfg, ws, hmem⟩ := h
  obtain ⟨hwf, hmap⟩ := State.pokes_inv ws hs
  exact ⟨hmem ▸ hwf, by rwa [hcfg, ← s.pokes_cfg ws]⟩

theorem State.OnlyStores.peek_of_rom {s t : State} {addr : Addr} (h : s.OnlyStores t) (hmap : s.cfg.wellFormed = true)
    (hrom : s.classOf addr = .rom) : t.peek addr = s.peek addr := by
  obtain ⟨hcfg, ws, hmem⟩ := h
  calc t.peek addr = (s.pokes ws).peek addr := State.peek_congr (hcfg.trans (s.pokes_cfg ws).symm) hmem addr
    _ = s.peek addr := State.peek_pokes_of_rom ws hmap hrom

end Sys2Proof.Machine

open Sys2Proof Sys2Proof.Machine

/-- Settles O10: a step changes memory by stores only and the map not at all, and a store keeps the canonical form. -/
theorem stepKeepsInvariant : Obligations.StepKeepsInvariant :=
  fun _ _ hinv hstep => (step_onlyStores hstep).inv hinv.sampled

/-- Settles O11: a step changes memory by stores only, and under the invariant no store reaches a ROM address's cell. -/
theorem romBytesNeverChange : Obligations.RomBytesNeverChange := by
  intro s t hinv hstep addr hrom
  have hstores := step_onlyStores hstep
  have ⟨hcfg, _⟩ := hstores
  obtain ⟨-, hmap⟩ := hinv.sampled
  rw [← s.sampled_classOf] at hrom
  rw [← s.sampled_peek]
  exact ⟨(State.classOf_congr hcfg addr).trans hrom, hstores.peek_of_rom hmap hrom⟩

/-- Settles O56: the targets of `exec_storesTo` are the only ones the instruction has, and it stores nowhere else. -/
theorem memoryFrame : Obligations.MemoryFrame := by
  intro i s t hexec
  obtain ⟨ws, htargets, hmem⟩ := exec_storesTo hexec
  refine ⟨⟨_, htargets⟩, fun targets h => ?_⟩
  obtain rfl : ws.map Prod.fst = targets := Except.ok.inj (htargets.symm.trans h)
  refine ⟨fun hnil => ?_, fun b hb => ?_⟩
  · obtain rfl := List.map_eq_nil_iff.1 hnil
    exact hmem
  · calc t.peek b = (s.pokes ws).peek b :=
          State.peek_congr ((exec_changes hexec).cfg.trans (s.pokes_cfg ws).symm) hmem b
      _ = s.peek b := State.peek_pokes_other hb

end

section
/-! SUPPORT. Why an access and an instruction are refused: one rule for each operation that a meaning is made of, one lemma for each
shape of instruction, and `exec_refused`, which collects them over all instructions; and the settling of the statements about
accesses and stops. -/

namespace Sys2Proof.Machine

/-! ### Refusals of a computation -/

theorem access_bind_eq_error {α β : Type} (x : Access α) (f : α → Access β) (r : Refusal) :
    (x >>= f) = .error r ↔ x = .error r ∨ ∃ a, x = .ok a ∧ f a = .error r := by
  cases x <;> simp [bind, Except.bind]

@[simp] theorem outcome_eq_refused (x : Access State) (r : Refusal) : outcome x = .refused r ↔ x = .error r := by
  cases x <;> simp

/-- The refusal of an access to an address (20_memory.md R36): by the name of the address's class, with the address. -/
def State.RefusedAt (s : State) (addr : Addr) (r : Refusal) : Prop :=
  (r = .deviceAccess addr ∧ s.classOf addr = .device) ∨ (r = .unmappedAddress addr ∧ s.classOf addr = .unmapped)

theorem State.checkAddress_eq_error (s : State) (addr : Addr) (r : Refusal) :
    s.checkAddress addr = .error r ↔ s.RefusedAt addr r := by
  unfold State.checkAddress State.RefusedAt
  cases s.classOf addr <;> simp [eq_comm]

theorem State.read_eq_error (s : State) (addr : Addr) (r : Refusal) : s.read addr = .error r ↔ s.RefusedAt addr r := by
  simp [State.read, access_bind_eq_error, State.checkAddress_eq_error, pure, Except.pure]

theorem State.write_eq_error (s : State) (addr : Addr) (v : Byte) (r : Refusal) :
    s.write addr v = .error r ↔ s.RefusedAt addr r := by
  simp [State.write, access_bind_eq_error, State.checkAddress_eq_error, pure, Except.pure]

/-! ### The parameters after a push and a pull -/

theorem State.push_cfg {s t : State} {v : Byte} (h : s.push v = .ok t) : t.cfg = s.cfg := by
  obtain ⟨-, rfl⟩ := (s.push_eq_ok t v).1 h
  rfl

theorem State.pushWord_cfg {s t : State} {w : Addr} (h : s.pushWord w = .ok t) : t.cfg = s.cfg := by
  obtain ⟨-, -, rfl⟩ := (s.pushWord_eq_ok t w).1 h
  rfl

theorem State.pull_cfg {s t : State} {v : Byte} (h : s.pull = .ok (v, t)) : t.cfg = s.cfg := by
  obtain ⟨-, -, rfl⟩ := (s.pull_eq_ok t v).1 h
  rfl

/-! ### Computations that only an address stops

`StopsAtAddress` is built along a computation: a read and a write stop so, a computation without an access does not stop, and a
computation in two parts stops so where both parts do. -/

/-- If the computation is refused, an address that is a device or unmapped in `s` is why. -/
def State.StopsAtAddress (s : State) {α : Type} (x : Access α) : Prop := ∀ r, x = .error r → ∃ addr, s.RefusedAt addr r

namespace State.StopsAtAddress

variable {α β : Type} {s t : State}

theorem ok (a : α) : s.StopsAtAddress (.ok a : Access α) := nofun

theorem bind {x : Access α} {f : α → Access β} (hx : s.StopsAtAddress x)
    (hf : ∀ a, x = .ok a → s.StopsAtAddress (f a)) : s.StopsAtAddress (x >>= f) := by
  intro r h
  obtain h | ⟨a, ha, h⟩ := (access_bind_eq_error x f r).1 h
  · exact hx r h
  · exact hf a ha r h

/-- A part that cannot stop adds no stop. -/
theorem map {x : Access α} {g : α → β} (hx : s.StopsAtAddress x) : s.StopsAtAddress (x >>= fun a => pure (g a)) :=
  hx.bind fun a _ => ok (g a)

/-- Classes are the map's, so a stop is one in every state with the same parameters. -/
theorem congr {x : Access α} (hcfg : t.cfg = s.cfg) (hx : t.StopsAtAddress x) : s.StopsAtAddress x := by
  intro r h
  obtain ⟨addr, hr⟩ := hx r h
  unfold State.RefusedAt at hr
  rw [State.classOf_congr hcfg] at hr
  exact ⟨addr, hr⟩

theorem of_outcome {x : Access State} {r : Refusal} (hx : s.StopsAtAddress x) (h : outcome x = .refused r) :
    ∃ addr, s.RefusedAt addr r :=
  hx r ((outcome_eq_refused x r).1 h)

theorem read (s : State) (addr : Addr) : s.StopsAtAddress (s.read addr) :=
  fun r h => ⟨addr, (s.read_eq_error addr r).1 h⟩

theorem write (s : State) (addr : Addr) (v : Byte) : s.StopsAtAddress (s.write addr v) :=
  fun r h => ⟨addr, (s.write_eq_error addr v r).1 h⟩

theorem readPair (s : State) (lowAt highAt : Addr) : s.StopsAtAddress (s.readPair lowAt highAt) :=
  (read s lowAt).bind fun _ _ => (read s highAt).map

theorem effectiveAddress (s : State) (m : AddrMode) : s.StopsAtAddress (s.effectiveAddress m) := by
  cases m with
  | zeroPage | zeroPageX | zeroPageY | absolute | absoluteX | absoluteY | relative => exact ok _
  | indirect | indirectX => exact readPair s _ _
  | indirectY => exact (readPair s _ _).map

theorem operandByte (s : State) (o : Operand) : s.StopsAtAddress (s.operandByte o) := by
  cases o with
  | accumulator | immediate => exact ok _
  | memory m => exact (effectiveAddress s m).bind fun ea _ => read s ea

theorem push (s : State) (v : Byte) : s.StopsAtAddress (s.push v) :=
  (write s _ v).map

theorem pull (s : State) : s.StopsAtAddress s.pull :=
  ((read (s.setSp (s.sp + 1)) _).congr rfl).map

theorem pushWord (s : State) (w : Addr) : s.StopsAtAddress (s.pushWord w) :=
  (push s _).bind fun t ht => (push t _).congr (State.push_cfg ht)

theorem pullWord (s : State) : s.StopsAtAddress s.pullWord :=
  (pull s).bind fun ⟨_, t⟩ ht => ((pull t).congr (State.pull_cfg ht)).map

theorem takeException (s : State) (ret : Addr) (brk : Bool) (vector : Addr) :
    s.StopsAtAddress (s.takeException ret brk vector) := by
  refine (pushWord s ret).bind fun t ht => ?_
  have hcfg := State.pushWord_cfg ht
  refine ((push t _).congr hcfg).bind fun u hu => ?_
  exact ((readPair _ _ _).congr (t := (u.setFlags _).setIpoll true) ((State.push_cfg hu).trans hcfg)).map

theorem returnFromException (s : State) : s.StopsAtAddress s.returnFromException :=
  (pull s).bind fun ⟨v, t⟩ ht => ((pullWord (t.setFlags (Flags.ofByte v))).congr (State.pull_cfg ht)).map

end State.StopsAtAddress

/-! ### The shapes of instructions -/

section
variable {s : State} {r : Refusal} {o : Operand} {m : AddrMode} {c : Cycles}

/-- A shape that reads its operand and cannot stop behind the read. -/
theorem operandByte_refused {g : Byte → State} (h : outcome (s.operandByte o >>= fun v => pure (g v)) = .refused r) :
    ∃ addr, s.RefusedAt addr r :=
  (State.StopsAtAddress.operandByte s o).map.of_outcome h

theorem loadInto_refused {put : State → Byte → State} (h : loadInto put o c s = .refused r) :
    ∃ addr, s.RefusedAt addr r :=
  operandByte_refused h

theorem accumulate_refused {f : Byte → Byte → Flags → Byte × Flags} (h : accumulate f o c s = .refused r) :
    ∃ addr, s.RefusedAt addr r :=
  operandByte_refused h

theorem compareWith_refused {reg : Byte} (h : compareWith reg o c s = .refused r) : ∃ addr, s.RefusedAt addr r :=
  operandByte_refused h

theorem bitTest_refused (h : bitTest o c s = .refused r) : ∃ addr, s.RefusedAt addr r :=
  operandByte_refused h

theorem storeAt_refused {v : Byte} (h : storeAt v m c s = .refused r) : ∃ addr, s.RefusedAt addr r :=
  ((State.StopsAtAddress.effectiveAddress s m).bind fun ea _ => (State.StopsAtAddress.write s ea v).map).of_outcome h

theorem modifyMemory_refused {f : Byte → Flags → Byte × Flags} (h : modifyMemory f m c s = .refused r) :
    ∃ addr, s.RefusedAt addr r :=
  ((State.StopsAtAddress.effectiveAddress s m).bind fun ea _ => (State.StopsAtAddress.read s ea).bind fun _ _ =>
    (State.StopsAtAddress.write s ea _).map).of_outcome h

theorem branchIf_ne_refused (cond : Bool) (off : Byte) (s : State) (r : Refusal) : branchIf cond off s ≠ .refused r := by
  cases cond <;> nofun

theorem State.checkDecimal_eq_error (s : State) (mn : Mnemonic) (r : Refusal) :
    s.checkDecimal mn = .error r ↔ r = .decimalArithmetic mn ∧ s.flags.d = true ∧ s.cfg.decimal = .refuse := by
  unfold State.checkDecimal
  cases s.flags.d <;> cases s.cfg.decimal <;> simp [eq_comm]

/-- ADC and SBC are refused at their operand's address, or by the decimal check once the operand is read. -/
theorem accumulateBinary_eq_refused (mn : Mnemonic) (f : Byte → Byte → Flags → Byte × Flags) (o : Operand) (c : Cycles)
    (s : State) (r : Refusal) :
    accumulateBinary mn f o c s = .refused r ↔
      s.operandByte o = .error r ∨
        (∃ m, s.operandByte o = .ok m) ∧ r = .decimalArithmetic mn ∧ s.flags.d = true ∧ s.cfg.decimal = .refuse := by
  unfold accumulateBinary
  simp only [outcome_eq_refused, access_bind_eq_error, State.checkDecimal_eq_error, pure, Except.pure, reduceCtorEq,
    and_false, exists_false, or_false, exists_and_right]

theorem accumulateBinary_refused {mn : Mnemonic} {f : Byte → Byte → Flags → Byte × Flags}
    (h : accumulateBinary mn f o c s = .refused r) :
    (∃ addr, s.RefusedAt addr r) ∨ r = .decimalArithmetic mn ∧ s.flags.d = true ∧ s.cfg.decimal = .refuse :=
  ((accumulateBinary_eq_refused mn f o c s r).1 h).imp (State.StopsAtAddress.operandByte s o r) And.right

end

/-! ### All instructions -/

/-- The refusal of decimal arithmetic: ADC or SBC with D at 1 under DECIMAL_ARITH = refuse (41_arithmetic.md R90, R91). -/
def State.DecimalRefusal (s : State) (mn : Mnemonic) (r : Refusal) : Prop :=
  r = .decimalArithmetic mn ∧ (mn = .adc ∨ mn = .sbc) ∧ s.flags.d = true ∧ s.cfg.decimal = .refuse

/-- Why any instruction is refused: an address, or decimal arithmetic. -/
theorem exec_refused {i : Instr} {s : State} {r : Refusal} (h : exec i s = .refused r) :
    (∃ addr, s.RefusedAt addr r) ∨ s.DecimalRefusal i.mnemonic r := by
  unfold exec at h
  cases i with
  | adcImm | adcZp | adcZpX | adcAbs | adcAbsX | adcAbsY | adcIndX | adcIndY =>
    exact (accumulateBinary_refused h).imp_right fun ⟨hr, hdecimal⟩ => ⟨hr, .inl rfl, hdecimal⟩
  | sbcImm | sbcZp | sbcZpX | sbcAbs | sbcAbsX | sbcAbsY | sbcIndX | sbcIndY =>
    exact (accumulateBinary_refused h).imp_right fun ⟨hr, hdecimal⟩ => ⟨hr, .inr rfl, hdecimal⟩
  | ldaImm | ldaZp | ldaZpX | ldaAbs | ldaAbsX | ldaAbsY | ldaIndX | ldaIndY | ldxImm | ldxZp | ldxZpY | ldxAbs | ldxAbsY
  | ldyImm | ldyZp | ldyZpX | ldyAbs | ldyAbsX => exact .inl (loadInto_refused h)
  | andImm | andZp | andZpX | andAbs | andAbsX | andAbsY | andIndX | andIndY | oraImm | oraZp | oraZpX | oraAbs | oraAbsX
  | oraAbsY | oraIndX | oraIndY | eorImm | eorZp | eorZpX | eorAbs | eorAbsX | eorAbsY | eorIndX | eorIndY =>
    exact .inl (accumulate_refused h)
  | cmpImm | cmpZp | cmpZpX | cmpAbs | cmpAbsX | cmpAbsY | cmpIndX | cmpIndY | cpxImm | cpxZp | cpxAbs | cpyImm | cpyZp
  | cpyAbs => exact .inl (compareWith_refused h)
  | bitZp | bitAbs => exact .inl (bitTest_refused h)
  | staZp | staZpX | staAbs | staAbsX | staAbsY | staIndX | staIndY | stxZp | stxZpY | stxAbs | styZp | styZpX | styAbs =>
    exact .inl (storeAt_refused h)
  | incZp | incZpX | incAbs | incAbsX | decZp | decZpX | decAbs | decAbsX | aslZp | aslZpX | aslAbs | aslAbsX | lsrZp
  | lsrZpX | lsrAbs | lsrAbsX | rolZp | rolZpX | rolAbs | rolAbsX | rorZp | rorZpX | rorAbs | rorAbsX =>
    exact .inl (modifyMemory_refused h)
  | bcc | bcs | beq | bmi | bne | bpl | bvc | bvs => exact absurd h (branchIf_ne_refused _ _ s r)
  | inx | dex | iny | dey | aslAcc | lsrAcc | rolAcc | rorAcc | tsx | txs | tax | tay | txa | tya | clc | sec | clv | cld
  | sed | cli | sei | nop | jmpAbs => exact nomatch h
  | jmpInd => exact .inl ((State.StopsAtAddress.effectiveAddress s _).map.of_outcome h)
  | jsr => exact .inl ((State.StopsAtAddress.pushWord s _).map.of_outcome h)
  | rts => exact .inl ((State.StopsAtAddress.pullWord s).map.of_outcome h)
  | pha | php => exact .inl ((State.StopsAtAddress.push s _).map.of_outcome h)
  | pla | plp => exact .inl ((State.StopsAtAddress.pull s).map.of_outcome h)
  | brk => exact .inl ((State.StopsAtAddress.takeException s _ _ _).of_outcome h)
  | rti => exact .inl ((State.StopsAtAddress.returnFromException s).of_outcome h)

/-- Every form of ADC and SBC is `accumulateBinary` of its operand. -/
theorem exec_eq_accumulateBinary {i : Instr} {o : Operand} (s : State) (hmn : i.mnemonic = .adc ∨ i.mnemonic = .sbc)
    (ho : i.operand = some o) : ∃ f c, exec i s = accumulateBinary i.mnemonic f o c s := by
  cases i with
  | adcImm | adcZp | adcZpX | adcAbs | adcAbsX | adcAbsY | adcIndX | adcIndY | sbcImm | sbcZp | sbcZpX | sbcAbs | sbcAbsX
  | sbcAbsY | sbcIndX | sbcIndY =>
    obtain rfl := Option.some.inj ho
    exact ⟨_, _, rfl⟩
  | _ => obtain h | h := hmn <;> cases h

end Sys2Proof.Machine

open Sys2Proof Sys2Proof.Machine

/-- Settles O14: the check of the address's class decides, and a store then does what the class says. -/
theorem memoryAccessByClass : Obligations.MemoryAccessByClass := by
  intro s addr v
  refine ⟨fun hram => ?_, fun hrom => ?_, fun hdevice => ?_, fun hunmapped => ?_⟩
  · have haccess := (s.accessible_eq_true addr).2 (.inl hram)
    have hsame := s.peek_poke_same addr v hram
    exact ⟨(s.read_eq_ok addr _).2 ⟨haccess, rfl⟩, s.poke addr v, (s.write_eq_ok _ addr v).2 ⟨haccess, rfl⟩, rfl,
      (State.read_eq_ok _ addr v).2 ⟨haccess, hsame.symm⟩, fun _ => hsame, fun hrom => absurd (hram.symm.trans hrom) nofun,
      fun b => s.peek_poke_other addr b v⟩
  · have haccess := (s.accessible_eq_true addr).2 (.inr hrom)
    have hstored : s.stored addr v = s.mem := s.stored_of_not_ram addr v (by simp [hrom])
    have hpoke : s.poke addr v = s := by rw [State.poke, hstored]
    exact ⟨(s.read_eq_ok addr _).2 ⟨haccess, rfl⟩, (s.write_eq_ok s addr v).2 ⟨haccess, hpoke.symm⟩⟩
  · exact ⟨(s.read_eq_error addr _).2 (.inl ⟨rfl, hdevice⟩), (s.write_eq_error addr v _).2 (.inl ⟨rfl, hdevice⟩)⟩
  · exact ⟨(s.read_eq_error addr _).2 (.inr ⟨rfl, hunmapped⟩), (s.write_eq_error addr v _).2 (.inr ⟨rfl, hunmapped⟩)⟩

/-- Settles O20: the causes of `exec_refused`, and the decimal check of `accumulateBinary`. -/
theorem stopsAreJustified : Obligations.StopsAreJustified := by
  refine ⟨fun i s => ⟨nofun, fun r h => ?_⟩, fun s i o m hmn ho hread hd hrefuse => ?_⟩
  · obtain ⟨addr, hdevice | hunmapped⟩ | hdecimal := exec_refused h
    · exact .inl ⟨addr, hdevice⟩
    · exact .inr (.inl ⟨addr, hunmapped⟩)
    · exact .inr (.inr hdecimal)
  · obtain ⟨f, c, hexec⟩ := exec_eq_accumulateBinary s hmn ho
    rw [hexec, accumulateBinary_eq_refused]
    exact .inr ⟨⟨m, hread⟩, rfl, hd, hrefuse⟩
end

section
/-! SUPPORT. Words as numbers, the decoder as a relation between bytes and instructions, the opcode table row by row;
and the settling of the statements about decoding, encoding and the step that runs what was decoded. -/

namespace Sys2Proof

/-! ### Words and their bytes -/

@[simp] theorem toNat_loByte (w : Addr) : (loByte w).toNat = w.toNat % 256 := by
  simp [loByte]

@[simp] theorem toNat_hiByte (w : Addr) : (hiByte w).toNat = w.toNat / 256 := by
  have hw := w.isLt
  simp only [hiByte, BitVec.extractLsb'_toNat, Nat.shiftRight_eq_div_pow]
  omega

@[simp] theorem toNat_wordOf (h l : Byte) : (wordOf h l).toNat = h.toNat * 256 + l.toNat := by
  rw [wordOf, BitVec.toNat_append, ← Nat.shiftLeft_add_eq_or_of_lt l.isLt, Nat.shiftLeft_eq]

@[simp] theorem loByte_wordOf (h l : Byte) : loByte (wordOf h l) = l := by
  have hl := l.isLt
  apply BitVec.eq_of_toNat_eq
  rw [toNat_loByte, toNat_wordOf]
  omega

@[simp] theorem hiByte_wordOf (h l : Byte) : hiByte (wordOf h l) = h := by
  have hl := l.isLt
  apply BitVec.eq_of_toNat_eq
  rw [toNat_hiByte, toNat_wordOf]
  omega

@[simp] theorem wordOf_hiByte_loByte (w : Addr) : wordOf (hiByte w) (loByte w) = w := by
  apply BitVec.eq_of_toNat_eq
  rw [toNat_wordOf, toNat_hiByte, toNat_loByte]
  omega

/-! ### The decoder -/

/-- A format makes the instruction `i` of the bytes after the opcode and leaves the rest (30_encoding.md R51). -/
inductive Form.Reads : Form → List Byte → Instr → List Byte → Prop
  | f1 (i : Instr) (rest : List Byte) : Reads (.f1 i) rest i rest
  | f2 (f : Byte → Instr) (b : Byte) (rest : List Byte) : Reads (.f2 f) (b :: rest) (f b) rest
  | f3 (f : Addr → Instr) (l h : Byte) (rest : List Byte) : Reads (.f3 f) (l :: h :: rest) (f (wordOf h l)) rest

/-- The decoder answers what the format of the opcode's row reads. -/
theorem decode_cons_eq_ok (op : Byte) (bs : List Byte) (i : Instr) (rest : List Byte) :
    decode (op :: bs) = .ok (i, rest) ↔ ∃ row, lookupOpcode op = some row ∧ row.form.Reads bs i rest := by
  cases hrow : lookupOpcode op with
  | none => simp [decode, hrow]
  | some row =>
    obtain ⟨opcode, inSource, form⟩ := row
    simp only [decode, hrow, Option.some.injEq, exists_eq_left']
    constructor
    · intro h
      split at h
      · cases h; exact .f1 _ _
      · cases h; exact .f2 _ _ _
      · cases h; exact .f3 _ _ _ _
      · cases h
      · cases h
    · rintro (_ | _ | _) <;> rfl

/-- A format reads one byte fewer than its length (30_encoding.md R50). -/
theorem Form.Reads.length_eq {form : Form} {bs rest : List Byte} {i : Instr} (h : form.Reads bs i rest) :
    bs.length = form.length - 1 + rest.length := by
  cases h with
  | f1 => simp [Form.length]
  | f2 => simp [Form.length, Nat.add_comm]
  | f3 => simp [Form.length]; omega

/-! ### The opcode table against the encoder -/

/-- The encoder writes the instructions of a format as the opcode and the format's operand bytes, low byte first. -/
def Form.EncodedAs (op : Byte) : Form → Prop
  | .f1 i => encode i = [op]
  | .f2 f => ∀ b, encode (f b) = [op, b]
  | .f3 f => ∀ w, encode (f w) = [op, loByte w, hiByte w]

/-- The encoder and the decoder's table agree on every row. -/
theorem encodedAs_of_mem_opcodeTable : ∀ row ∈ opcodeTable, row.form.EncodedAs row.opcode := by
  simp only [opcodeTable, opcodeRow0, opcodeRow1, opcodeRow2, opcodeRow3, opcodeRow4, opcodeRow5, opcodeRow6,
    opcodeRow7, opcodeRow8, opcodeRow9, opcodeRowA, opcodeRowB, opcodeRowC, opcodeRowD, opcodeRowE, opcodeRowF,
    List.forall_mem_append, List.forall_mem_cons, List.not_mem_nil, false_imp_iff, implies_true, and_true,
    Form.EncodedAs]
  and_intros <;> intros <;> rfl

theorem mem_of_lookupOpcode {op : Byte} {row : Row} (h : lookupOpcode op = some row) :
    row ∈ opcodeTable ∧ row.opcode = op :=
  ⟨List.mem_of_find?_eq_some h, by simpa using List.find?_some h⟩

/-- What a format reads is encoded as the opcode and the bytes read. -/
theorem Form.EncodedAs.append_of_reads {op : Byte} {form : Form} {bs rest : List Byte} {i : Instr}
    (henc : form.EncodedAs op) (hreads : form.Reads bs i rest) : encode i ++ rest = op :: bs := by
  cases hreads with
  | f1 i => exact congrArg (· ++ _) henc
  | f2 f b => exact congrArg (· ++ _) (henc b)
  | f3 f l h => simp [henc (wordOf h l)]

theorem encode_append_of_reads {op : Byte} {row : Row} {bs rest : List Byte} {i : Instr}
    (hrow : lookupOpcode op = some row) (hreads : row.form.Reads bs i rest) : encode i ++ rest = op :: bs := by
  obtain ⟨hmem, rfl⟩ := mem_of_lookupOpcode hrow
  exact (encodedAs_of_mem_opcodeTable row hmem).append_of_reads hreads

theorem encode_append_of_decode {bs rest : List Byte} {i : Instr} (h : decode bs = .ok (i, rest)) :
    encode i ++ rest = bs := by
  cases bs with
  | nil => cases h
  | cons op bs =>
    obtain ⟨row, hrow, hreads⟩ := (decode_cons_eq_ok op bs i rest).1 h
    exact encode_append_of_reads hrow hreads

/-- The instruction is one that the format makes. -/
def Form.Makes (i : Instr) : Form → Prop
  | .f1 j => j = i
  | .f2 f => ∃ b, f b = i
  | .f3 f => ∃ w, f w = i

/-- Every instruction a format makes, it reads from some operand bytes. -/
theorem Form.Makes.exists_reads {form : Form} {i : Instr} (h : form.Makes i) (rest : List Byte) :
    ∃ bs, form.Reads bs i rest := by
  cases form with
  | f1 j =>
    obtain rfl := h
    exact ⟨_, .f1 j rest⟩
  | f2 f =>
    obtain ⟨b, rfl⟩ := h
    exact ⟨_, .f2 f b rest⟩
  | f3 f =>
    obtain ⟨w, rfl⟩ := h
    exact ⟨_, by simpa using Form.Reads.f3 f (loByte w) (hiByte w) rest⟩

/-- The row that an instruction's opcode byte selects makes the instruction, in each of the three groups of instructions
that have one format. -/
theorem exists_row_makes (i : Instr) :
    ∃ row, (encode i).head?.bind lookupOpcode = some row ∧ row.form.Makes i := by
  cases i with
  | inx | dex | iny | dey | aslAcc | lsrAcc | rolAcc | rorAcc | rts | pha | php | pla | plp | tsx | txs | clc | sec
  | cli | sei | clv | cld | sed | nop | brk | rti | tax | tay | txa | tya =>
    exact ⟨_, rfl, rfl⟩
  | ldaImm b | ldaZp b | ldaZpX b | ldaIndX b | ldaIndY b | staZp b | staZpX b | staIndX b | staIndY b | ldxImm b
  | ldxZp b | ldxZpY b | ldyImm b | ldyZp b | ldyZpX b | stxZp b | stxZpY b | styZp b | styZpX b | adcImm b | adcZp b
  | adcZpX b | adcIndX b | adcIndY b | sbcImm b | sbcZp b | sbcZpX b | sbcIndX b | sbcIndY b | incZp b | incZpX b
  | decZp b | decZpX b | andImm b | andZp b | andZpX b | andIndX b | andIndY b | oraImm b | oraZp b | oraZpX b
  | oraIndX b | oraIndY b | eorImm b | eorZp b | eorZpX b | eorIndX b | eorIndY b | aslZp b | aslZpX b | lsrZp b
  | lsrZpX b | rolZp b | rolZpX b | rorZp b | rorZpX b | bcc b | bcs b | beq b | bmi b | bne b | bpl b | bvc b | bvs b
  | cmpImm b | cmpZp b | cmpZpX b | cmpIndX b | cmpIndY b | cpxImm b | cpxZp b | cpyImm b | cpyZp b | bitZp b =>
    exact ⟨_, rfl, b, rfl⟩
  | ldaAbs w | ldaAbsX w | ldaAbsY w | staAbs w | staAbsX w | staAbsY w | ldxAbs w | ldxAbsY w | ldyAbs w | ldyAbsX w
  | stxAbs w | styAbs w | adcAbs w | adcAbsX w | adcAbsY w | sbcAbs w | sbcAbsX w | sbcAbsY w | incAbs w | incAbsX w
  | decAbs w | decAbsX w | andAbs w | andAbsX w | andAbsY w | oraAbs w | oraAbsX w | oraAbsY w | eorAbs w | eorAbsX w
  | eorAbsY w | aslAbs w | aslAbsX w | lsrAbs w | lsrAbsX w | rolAbs w | rolAbsX w | rorAbs w | rorAbsX w | jmpAbs w
  | jmpInd w | jsr w | cmpAbs w | cmpAbsX w | cmpAbsY w | cpxAbs w | cpyAbs w | bitAbs w =>
    exact ⟨_, rfl, w, rfl⟩

theorem decode_encode_append (i : Instr) (rest : List Byte) : decode (encode i ++ rest) = .ok (i, rest) := by
  obtain ⟨row, hselect, hmakes⟩ := exists_row_makes i
  obtain ⟨op, -, hrow⟩ := Option.bind_eq_some_iff.1 hselect
  obtain ⟨bs, hreads⟩ := hmakes.exists_reads rest
  rw [encode_append_of_reads hrow hreads]
  exact (decode_cons_eq_ok op bs i rest).2 ⟨row, hrow, hreads⟩

end Sys2Proof

namespace Sys2Proof.Machine

/-! ### The fetch -/

theorem State.readBytes_succ_eq_ok (s : State) (addr : Addr) (n : Nat) (b : Byte) (bs : List Byte) :
    s.readBytes addr (n + 1) = .ok (b :: bs) ↔ s.read addr = .ok b ∧ s.readBytes (addr + 1) n = .ok bs := by
  simp only [State.readBytes, access_bind_eq_ok, pure, Except.pure, Except.ok.injEq, List.cons.injEq]
  constructor
  · rintro ⟨_, hread, _, hrest, rfl, rfl⟩
    exact ⟨hread, hrest⟩
  · rintro ⟨hread, hrest⟩
    exact ⟨b, hread, bs, hrest, rfl, rfl⟩

@[simp] theorem State.sampled_readBytes (s : State) (addr : Addr) (n : Nat) :
    s.sampled.readBytes addr n = s.readBytes addr n := by
  induction n generalizing addr with
  | zero => rfl
  | succ n ih => simp only [State.readBytes, State.sampled_read, ih]

/-- A fetch gives the admitted instruction that the bytes from PC on decode to (30_encoding.md R50 to R52). -/
theorem State.fetch_eq_ok_of_decode {s : State} {i : Instr} {bs : List Byte} (hadmit : i.wellFormed s.cfg = true)
    (hbytes : s.readBytes s.pc bs.length = .ok bs) (hdecode : decode bs = .ok (i, [])) : s.fetch = .ok i := by
  cases bs with
  | nil => cases hdecode
  | cons op bs =>
    obtain ⟨hop, hoperands⟩ := (s.readBytes_succ_eq_ok _ _ _ _).1 hbytes
    obtain ⟨row, hrow, hreads⟩ := (decode_cons_eq_ok op bs i []).1 hdecode
    have hencode : encode i = op :: bs := by simpa using encode_append_of_decode hdecode
    have hsource : row.inSource = i.inSource :=
      inSource_of_lookupOpcode (congrArg List.head? hencode) hrow
    have hlength : bs.length = row.form.length - 1 := hreads.length_eq
    exact (s.fetch_eq_ok i).2 ⟨op, row, bs, [], hop, hrow, hsource ▸ hadmit, hlength ▸ hoperands, hdecode⟩

/-- Where no event is taken, a step runs what its fetch gives. -/
theorem step_eq_exec {s : State} {i : Instr} (hevent : s.sampled.event s.boundary = none)
    (hfetch : s.sampled.fetch = .ok i) : step s = exec i s.sampled := by
  simp [step, hevent, hfetch]

/-- What a boundary's inputs change (60_exceptions.md R182, R183, R197). -/
theorem State.sampled_eq (s : State) : s.sampled = { s with
    inputs := s.inputs.tail, irqLine := s.boundary.irqLine, nmiPending := s.nmiPending || s.boundary.nmiEdge } := by
  cases h : s.inputs with
  | nil => apply State.ext <;> simp [s.sampled_nil h, State.boundary, quietBoundary, h]
  | cons b rest => simp [s.sampled_cons b rest h, State.boundary, h]

end Sys2Proof.Machine

open Sys2Proof Sys2Proof.Machine

/-- Settles O5: the row of the instruction's opcode reads the instruction back. -/
theorem decodeOfEncode : Obligations.DecodeOfEncode :=
  decode_encode_append

/-- Settles O6: what a row reads is encoded as the bytes read. -/
theorem encodeOfDecode : Obligations.EncodeOfDecode :=
  fun _ _ _ => encode_append_of_decode

/-- Settles O1: the fetch gives the instruction, from the sampled state, which has the same bytes and parameters. -/
theorem stepRunsDecodedInstruction : Obligations.StepRunsDecodedInstruction := by
  refine ⟨fun s i bs hevent hadmit hbytes hdecode => ?_, State.sampled_eq, State.sampled_nil⟩
  exact step_eq_exec hevent (State.fetch_eq_ok_of_decode (by simpa using hadmit) (by simpa using hbytes) hdecode)

/-- Settles O4: the words are the encodings of the instructions named. -/
theorem writtenWordsDecode : Obligations.WrittenWordsDecode :=
  ⟨decode_encode_append (.ldaImm 0x42) [], decode_encode_append (.ldaZpX 0x42) [],
    decode_encode_append (.staAbs 0x0200) [], decode_encode_append (.stxZpY 0x42) [],
    decode_encode_append (.ldaAbsX 0x1234) [], decode_encode_append (.ldaAbsY 0x0042) [],
    decode_encode_append (.sbcIndX 0x20) [], decode_encode_append (.cmpIndY 0x20) [],
    decode_encode_append (.adcZp 0x10) [], decode_encode_append .rorAcc [],
    decode_encode_append (.beq 0xFE) [], decode_encode_append (.jmpInd 0x02FF) [],
    decode_encode_append .pha [], decode_encode_append (.bitZp 0x20) [],
    decode_encode_append .brk [0xEA], decode_encode_append .tax []⟩
end

section
/-! SUPPORT. The addresses of the operand forms as numbers; and the settling of the statements about them and about the
page-crossing predicate. -/

namespace Sys2Proof.Machine

/-! ### Addresses that read no pointer -/

@[simp] theorem toNat_zeroPageAddr (b : Byte) : (zeroPageAddr b).toNat = b.toNat := by
  simp [zeroPageAddr]

/-- An indexed address wraps in the address space (30_encoding.md R60, R61, R64). -/
theorem toNat_add_index (w : Addr) (r : Byte) : (w + r.setWidth 16).toNat = (w.toNat + r.toNat) % 65536 := by
  have hr := r.isLt
  rw [BitVec.toNat_add, BitVec.toNat_setWidth, Nat.mod_eq_of_lt (a := r.toNat) (by omega)]

/-- A branch target wraps in the address space (30_encoding.md R65). -/
theorem State.toNat_branchTarget (s : State) (off : Byte) :
    ((s.branchTarget off).toNat : Int) = (s.pc.toNat + 2 + off.toInt) % 65536 := by
  have htwo : (2 : Addr).toNat = 2 := rfl
  simp only [State.branchTarget, BitVec.signExtend, BitVec.toNat_add, BitVec.toNat_ofInt, htwo]
  omega

/-! ### Addresses that read a pointer -/

theorem eq_zeroPageAddr {p : Addr} {b : Byte} (h : p.toNat = b.toNat) : p = zeroPageAddr b :=
  BitVec.eq_of_toNat_eq (by simpa using h)

/-- The high byte of an indirect pointer is read in the pointer's own page (30_encoding.md R62). -/
theorem toNat_pointerHigh (p : Addr) : (pointerHigh p).toNat = p.toNat / 256 * 256 + (p.toNat + 1) % 256 := by
  simp [pointerHigh, BitVec.toNat_add]

/-- A zero-page pointer is made of the two bytes at addresses that wrap in the zero page (20_memory.md R31). -/
theorem State.zeroPagePointer_of_toNat {s : State} {zp : Byte} {p q : Addr} (hp : p.toNat = zp.toNat)
    (hq : q.toNat = (zp.toNat + 1) % 256) (hpa : s.accessible p = true) (hqa : s.accessible q = true) :
    s.zeroPagePointer zp = .ok (wordOf (s.peek q) (s.peek p)) := by
  obtain rfl := eq_zeroPageAddr hp
  obtain rfl : q = zeroPageAddr (zp + 1) := eq_zeroPageAddr (by simpa [BitVec.toNat_add] using hq)
  exact (s.zeroPagePointer_eq_ok zp _).2 ⟨hpa, hqa, rfl⟩

/-! ### Pages -/

/-- An index moves an address to another page exactly when it carries out of the low byte (30_encoding.md R73). -/
theorem carry_iff_page_ne (w : Addr) (r : Byte) :
    255 < (loByte w).toNat + r.toNat ↔ (w + r.setWidth 16).toNat / 256 ≠ w.toNat / 256 := by
  have hw := w.isLt
  have hr := r.isLt
  rw [toNat_loByte, toNat_add_index]
  omega

end Sys2Proof.Machine

open Sys2Proof Sys2Proof.Machine

/-- Settles O17: the rule of each mode as a number, and the read at the effective address. -/
theorem directOperandFormulas : Obligations.DirectOperandFormulas := by
  refine ⟨fun s b w => ⟨?zeroPage, ?zeroPageX, ?zeroPageY, rfl, ?absoluteX, ?absoluteY, ?relative, rfl, rfl⟩,
    fun s m ea hea haccess => (s.operandByte_memory_eq_ok m _).2 ⟨ea, hea, haccess, rfl⟩⟩
  case zeroPage => exact ⟨_, rfl, toNat_zeroPageAddr b⟩
  case zeroPageX => exact ⟨_, rfl, by simp [BitVec.toNat_add]⟩
  case zeroPageY => exact ⟨_, rfl, by simp [BitVec.toNat_add]⟩
  case absoluteX => exact ⟨_, rfl, toNat_add_index w s.x⟩
  case absoluteY => exact ⟨_, rfl, toNat_add_index w s.y⟩
  case relative => exact ⟨_, rfl, s.toNat_branchTarget b⟩

/-- Settles O18: the two pointer addresses are the ones given by number, and the pointer is the word at them. -/
theorem pointerAddressFormulas : Obligations.PointerAddressFormulas := by
  intro s b w p q
  have htoNat : (wordOf (s.peek q) (s.peek p)).toNat = (s.peek p).toNat + 256 * (s.peek q).toNat := by
    rw [toNat_wordOf]
    omega
  refine ⟨fun hp hq hpa hqa => ?indirect, fun hp hq hpa hqa => ?indirectX, fun hp hq hpa hqa => ?indirectY⟩
  case indirect =>
    obtain rfl := hp
    obtain rfl : q = pointerHigh p := BitVec.eq_of_toNat_eq (hq.trans (toNat_pointerHigh p).symm)
    exact ⟨_, (s.effectiveAddress_indirect_eq_ok p _).2 ⟨hpa, hqa, rfl⟩, htoNat⟩
  case indirectX =>
    have hptr := State.zeroPagePointer_of_toNat (zp := b + s.x) (by simpa [BitVec.toNat_add] using hp)
      (by simpa [BitVec.toNat_add] using hq) hpa hqa
    exact ⟨_, hptr, htoNat⟩
  case indirectY =>
    have hptr := State.zeroPagePointer_of_toNat hp hq hpa hqa
    exact ⟨_, (s.effectiveAddress_indirectY_eq_ok b _).2 ⟨_, hptr, rfl⟩, by rw [toNat_add_index, htoNat]⟩

/-- Settles O59: the carry out of the low byte, which for (Indirect),Y is the byte the pointer was read from. -/
theorem pageCrossingMeansAnotherPage : Obligations.PageCrossingMeansAnotherPage := by
  intro s b w base
  refine ⟨decide_eq_true_iff.trans (carry_iff_page_ne w s.x), decide_eq_true_iff.trans (carry_iff_page_ne w s.y),
    fun hbase => ?_, rfl, rfl, rfl⟩
  obtain ⟨-, -, hword⟩ := (s.zeroPagePointer_eq_ok b base).1 hbase
  have hlow : loByte base = s.peek (zeroPageAddr b) := by rw [hword, loByte_wordOf]
  refine decide_eq_true_iff.trans ?_
  rw [← hlow]
  exact carry_iff_page_ne base s.y
end

section
/-! SUPPORT. The loads and stores: the shape that every form of them is, and what a store makes of memory; and the
settling of the statements about them. -/

namespace Sys2Proof.Machine

/-! ### Loads -/

/-- The register write of a load instruction (40_load_store.md R80, R82, R83). -/
def loadPut : Mnemonic → Option (State → Byte → State)
  | .lda => some State.setA
  | .ldx => some State.setX
  | .ldy => some State.setY
  | _ => none

/-- Every form of LDA, LDX and LDY is `loadInto` its register from its operand. -/
theorem exec_eq_loadInto {i : Instr} {o : Operand} {put : State → Byte → State} (s : State)
    (hput : loadPut i.mnemonic = some put) (ho : i.operand = some o) : ∃ c, exec i s = loadInto put o c s := by
  cases i with
  | ldaImm | ldaZp | ldaZpX | ldaAbs | ldaAbsX | ldaAbsY | ldaIndX | ldaIndY | ldxImm | ldxZp | ldxZpY | ldxAbs | ldxAbsY
  | ldyImm | ldyZp | ldyZpX | ldyAbs | ldyAbsX =>
    obtain rfl := Option.some.inj hput
    obtain rfl := Option.some.inj ho
    exact ⟨_, rfl⟩
  | _ => cases hput

/-- A load whose operand byte can be read completes, with the byte in its register and N and Z from it. -/
theorem exec_load_eq_next {s : State} {i : Instr} {o : Operand} {v : Byte} {put : State → Byte → State}
    (hput : loadPut i.mnemonic = some put) (ho : i.operand = some o) (hv : s.operandByte o = .ok v) :
    ∃ cyc, exec i s = .next (((put s v).setFlags (s.flags.setNZ v)).advance (operandLength o) cyc) := by
  obtain ⟨c, hexec⟩ := exec_eq_loadInto s hput ho
  exact ⟨s.cycleCount o c, hexec.trans ((loadInto_eq_next put o c s _).2 ⟨v, hv, rfl⟩)⟩

/-! ### Stores -/

/-- Every form of STA, STX and STY is `storeAt` of its register at its operand's mode. -/
theorem exec_eq_storeAt {i : Instr} {m : AddrMode} {s : State} {v : Byte} (hreg : s.storedRegister i.mnemonic = some v)
    (ho : i.operand = some (.memory m)) : ∃ c, exec i s = storeAt v m c s := by
  cases i with
  | staZp | staZpX | staAbs | staAbsX | staAbsY | staIndX | staIndY | stxZp | stxZpY | stxAbs | styZp | styZpX | styAbs =>
    obtain rfl := Option.some.inj hreg
    obtain rfl := Operand.memory.inj (Option.some.inj ho)
    exact ⟨_, rfl⟩
  | _ => cases hreg

/-- A store whose effective address is accessible completes, with its register stored there. -/
theorem exec_store_eq_next {s : State} {i : Instr} {m : AddrMode} {ea : Addr} {v : Byte}
    (hreg : s.storedRegister i.mnemonic = some v) (ho : i.operand = some (.memory m))
    (hea : s.effectiveAddress m = .ok ea) (haccess : s.accessible ea = true) :
    ∃ cyc, exec i s = .next ((s.poke ea v).advance (modeLength m) cyc) := by
  obtain ⟨c, hexec⟩ := exec_eq_storeAt hreg ho
  exact ⟨s.cycleCount (.memory m) c, hexec.trans ((storeAt_eq_next v m c s _).2 ⟨ea, hea, haccess, rfl⟩)⟩

/-- Storing a byte makes of memory what 20_memory.md R36 says, in each class of address. -/
theorem State.byteStored_poke (s : State) (addr : Addr) (v : Byte) : s.ByteStored (s.poke addr v) addr v :=
  ⟨s.peek_poke_same addr v, fun hrom => s.stored_of_not_ram addr v (by simp [hrom]), fun b => s.peek_poke_other addr b v⟩

/-- What is stored is read off memory and the parameters only. -/
theorem State.ByteStored.congr {s t u : State} {addr : Addr} {v : Byte} (h : s.ByteStored t addr v) (hcfg : u.cfg = t.cfg)
    (hmem : u.mem = t.mem) : s.ByteStored u addr v := by
  obtain ⟨hram, hrom, hother⟩ := h
  have hpeek := State.peek_congr hcfg hmem
  exact ⟨fun hclass => (hpeek addr).trans (hram hclass), fun hclass => hmem.trans (hrom hclass),
    fun b hb => (hpeek b).trans (hother b hb)⟩

end Sys2Proof.Machine

open Sys2Proof Sys2Proof.Machine

/-- Settles O21: the next state of `exec_load_eq_next`, for each of the three registers. -/
theorem loadResult : Obligations.LoadResult := by
  intro s i o v ho hv
  refine ⟨fun hmn => ?lda, fun hmn => ?ldx, fun hmn => ?ldy⟩
  case lda | ldx | ldy =>
    obtain ⟨_, hexec⟩ := exec_load_eq_next (congrArg loadPut hmn) ho hv
    exact ⟨_, hexec⟩

/-- Settles O22: the next state of `exec_store_eq_next`, whose memory is the one `poke` makes. -/
theorem storeResult : Obligations.StoreResult := by
  intro s i m ea v ho hreg hea haccess
  obtain ⟨_, hexec⟩ := exec_store_eq_next hreg ho hea haccess
  exact ⟨_, hexec, (s.byteStored_poke ea v).congr rfl rfl, rfl⟩
end

section
/-! SUPPORT. The arithmetic of 41_arithmetic.md: addition and subtraction in exact integers, counting by one, and the shape that
every form of ADC and SBC, and every read-modify-write of memory, is; and the settling of the statements about them. -/

namespace Sys2Proof.Machine

/-! ### Addition and subtraction in exact integers -/

/-- V of R90, two operands of one sign and a result of the other, says that the exact signed sum is out of range. -/
theorem msb_overflow_eq {a m r : Byte} {c : Bool} (hr : r.toNat = addSum a m c % 256) :
    ((a ^^^ r) &&& (m ^^^ r)).msb = decide (a.toInt + m.toInt + c.toNat < -128 ∨ 127 < a.toInt + m.toInt + c.toNat) := by
  have hsigns : ((a ^^^ r) &&& (m ^^^ r)).msb = true ↔
      ¬(128 ≤ a.toNat ↔ 128 ≤ r.toNat) ∧ ¬(128 ≤ m.toNat ↔ 128 ≤ r.toNat) := by
    rw [BitVec.msb_and, BitVec.msb_xor, BitVec.msb_xor]
    simp [BitVec.msb_eq_decide]
  have hc : c.toNat ≤ 1 := c.toNat_le
  rw [Bool.eq_iff_iff, hsigns, decide_eq_true_iff, BitVec.toInt_eq_toNat_cond, BitVec.toInt_eq_toNat_cond]
  unfold addSum at hr
  omega

/-- ADC in exact integers (R90): `u` is the unsigned sum and `x` the signed one. -/
theorem addFlags_eq {a m r : Byte} {f : Flags} {u : Nat} {x : Int} (hu : u = a.toNat + m.toNat + f.c.toNat)
    (hx : x = a.toInt + m.toInt + f.c.toNat) (hr : r.toNat = u % 256) :
    addFlags a m f =
      (r, { f with n := r.getLsbD 7, v := decide (x < -128 ∨ 127 < x), z := decide (r = 0x00), c := decide (255 < u) }) := by
  subst hu hx
  have hresult : BitVec.ofNat 8 (addSum a m f.c) = r := BitVec.eq_of_toNat_eq hr.symm
  unfold addFlags
  simp only [hresult, Flags.setNZ_eq, msb_overflow_eq hr]
  rfl

/-- SBC in exact integers (R91): `u` is the unsigned difference less the borrow and `x` the signed one. -/
theorem subFlags_eq {a m r : Byte} {f : Flags} {u x : Int} (hu : u = a.toNat - m.toNat - (1 - f.c.toNat))
    (hx : x = a.toInt - m.toInt - (1 - f.c.toNat)) (hr : (r.toNat : Int) = u % 256) :
    subFlags a m f =
      (r, { f with n := r.getLsbD 7, v := decide (x < -128 ∨ 127 < x), z := decide (r = 0x00), c := decide (0 ≤ u) }) := by
  have hnot : m ^^^ 0xFF = ~~~m := BitVec.xor_allOnes
  have hnat : (~~~m).toNat = 255 - m.toNat := BitVec.toNat_not
  have hint : (~~~m).toInt = -1 - m.toInt := by
    rw [BitVec.toInt_eq_toNat_cond, BitVec.toInt_eq_toNat_cond, hnat]
    omega
  have hsum : ((a.toNat + (~~~m).toNat + f.c.toNat : Nat) : Int) = u + 256 := by omega
  have hcarry : 255 < a.toNat + (~~~m).toNat + f.c.toNat ↔ 0 ≤ u := by omega
  rw [subFlags, hnot, addFlags_eq (r := r) (x := x) rfl (by omega) (by omega)]
  simp only [hcarry]

/-! ### ADC and SBC -/

/-- The computation of ADC and SBC (R90, R91). -/
def binaryOp : Mnemonic → Option (Byte → Byte → Flags → Byte × Flags)
  | .adc => some addFlags
  | .sbc => some subFlags
  | _ => none

/-- Every form of ADC and SBC is `accumulateBinary` of its computation and its operand. -/
theorem exec_eq_accumulateBinary_binaryOp {i : Instr} {o : Operand} {f : Byte → Byte → Flags → Byte × Flags} (s : State)
    (hop : binaryOp i.mnemonic = some f) (ho : i.operand = some o) :
    ∃ c, exec i s = accumulateBinary i.mnemonic f o c s := by
  cases i with
  | adcImm | adcZp | adcZpX | adcAbs | adcAbsX | adcAbsY | adcIndX | adcIndY | sbcImm | sbcZp | sbcZpX | sbcAbs | sbcAbsX
  | sbcAbsY | sbcIndX | sbcIndY =>
    obtain rfl := Option.some.inj hop
    obtain rfl := Option.some.inj ho
    exact ⟨_, rfl⟩
  | _ => cases hop

/-- In binary arithmetic ADC and SBC complete once their operand byte can be read. -/
theorem exec_binaryOp_eq_next {s : State} {i : Instr} {o : Operand} {m r : Byte} {g : Flags}
    {f : Byte → Byte → Flags → Byte × Flags} (hop : binaryOp i.mnemonic = some f) (ho : i.operand = some o)
    (hm : s.operandByte o = .ok m) (hbinary : s.BinaryArith) (hf : f s.a m s.flags = (r, g)) :
    ∃ cyc, exec i s = .next (((s.setA r).setFlags g).advance (operandLength o) cyc) := by
  obtain ⟨c, hexec⟩ := exec_eq_accumulateBinary_binaryOp s hop ho
  refine ⟨s.cycleCount o c, hexec.trans ((accumulateBinary_eq_next _ f o c s _).2 ⟨m, hm, hbinary, ?_⟩)⟩
  rw [hf]

/-! ### Read-modify-write -/

/-- The computation of a read-modify-write instruction (R92, R93, R103 to R106). -/
def modifyOp : Mnemonic → Option (Byte → Flags → Byte × Flags)
  | .inc => some increment
  | .dec => some decrement
  | .asl => some shiftLeft
  | .lsr => some shiftRight
  | .rol => some rotateLeft
  | .ror => some rotateRight
  | _ => none

/-- Every memory form of a read-modify-write instruction is `modifyMemory` of its computation at its operand's mode. -/
theorem exec_eq_modifyMemory {i : Instr} {m : AddrMode} {f : Byte → Flags → Byte × Flags} (s : State)
    (hop : modifyOp i.mnemonic = some f) (ho : i.operand = some (.memory m)) : ∃ c, exec i s = modifyMemory f m c s := by
  cases i with
  | incZp | incZpX | incAbs | incAbsX | decZp | decZpX | decAbs | decAbsX | aslZp | aslZpX | aslAbs | aslAbsX | lsrZp | lsrZpX
  | lsrAbs | lsrAbsX | rolZp | rolZpX | rolAbs | rolAbsX | rorZp | rorZpX | rorAbs | rorAbsX =>
    obtain rfl := Option.some.inj hop
    obtain rfl := Operand.memory.inj (Option.some.inj ho)
    exact ⟨_, rfl⟩
  | aslAcc | lsrAcc | rolAcc | rorAcc => cases ho
  | _ => cases hop

/-- A read-modify-write completes at an accessible effective address, with the changed byte stored there. -/
theorem exec_modifyOp_eq_next {s : State} {i : Instr} {m : AddrMode} {ea : Addr} {r : Byte} {g : Flags}
    {f : Byte → Flags → Byte × Flags} (hop : modifyOp i.mnemonic = some f) (ho : i.operand = some (.memory m))
    (hea : s.effectiveAddress m = .ok ea) (haccess : s.accessible ea = true) (hf : f (s.peek ea) s.flags = (r, g)) :
    ∃ cyc, exec i s = .next (((s.poke ea r).setFlags g).advance (modeLength m) cyc) := by
  obtain ⟨c, hexec⟩ := exec_eq_modifyMemory s hop ho
  refine ⟨s.cycleCount (.memory m) c, hexec.trans ((modifyMemory_eq_next f m c s _).2 ⟨ea, hea, haccess, ?_⟩)⟩
  rw [hf]

/-- A one-byte change of a register completes with the changed value and its flags. -/
theorem modifyRegister_of_eq {put : State → Byte → State} {v r : Byte} {f : Byte → Flags → Byte × Flags} {s : State}
    {g : Flags} (hf : f v s.flags = (r, g)) : modifyRegister put v f s = .next (((put s r).setFlags g).advance 1 2) := by
  rw [modifyRegister_eq_next, hf]

/-! ### Counting by one -/

/-- One more modulo 256 (R92, R94, R96), as a number. -/
theorem increment_eq {v r : Byte} (h : (r.toNat : Int) = (v.toNat + 1) % 256) (f : Flags) :
    increment v f = (r, f.setNZ r) := by
  obtain rfl : r = v + 1 := by bv_omega
  rfl

/-- One less modulo 256 (R93, R95, R97), as a number. -/
theorem decrement_eq {v r : Byte} (h : (r.toNat : Int) = (v.toNat - 1) % 256) (f : Flags) :
    decrement v f = (r, f.setNZ r) := by
  obtain rfl : r = v - 1 := by bv_omega
  rfl

theorem toNat_ofInt_byte (x : Int) : ((BitVec.ofInt 8 x).toNat : Int) = x % 256 := by
  rw [BitVec.toNat_ofInt]
  omega

/-- INC and DEC have a computation, and it gives their counted byte with its N and Z. -/
theorem exists_modifyOp_of_countResult {mn : Mnemonic} {v r : Byte} (h : countResult v mn = some r) :
    ∃ f, modifyOp mn = some f ∧ ∀ g, f v g = (r, g.setNZ r) := by
  cases mn with
  | inc =>
    obtain rfl := Option.some.inj h
    exact ⟨increment, rfl, increment_eq (toNat_ofInt_byte _)⟩
  | dec =>
    obtain rfl := Option.some.inj h
    exact ⟨decrement, rfl, decrement_eq (toNat_ofInt_byte _)⟩
  | _ => cases h

end Sys2Proof.Machine

open Sys2Proof Sys2Proof.Machine

/-- Settles O23: the next state of `exec_binaryOp_eq_next`, with the exact sums of `addFlags_eq`. -/
theorem adcResult : Obligations.AdcResult := by
  intro s i o m r u x hmn ho hm hbinary hu hx hr
  obtain ⟨_, hexec⟩ := exec_binaryOp_eq_next (congrArg binaryOp hmn) ho hm hbinary (addFlags_eq hu hx hr)
  exact ⟨_, hexec⟩

/-- Settles O24: the next state of `exec_binaryOp_eq_next`, with the exact differences of `subFlags_eq`. -/
theorem sbcResult : Obligations.SbcResult := by
  intro s i o m r u x hmn ho hm hbinary hu hx hr
  obtain ⟨_, hexec⟩ := exec_binaryOp_eq_next (congrArg binaryOp hmn) ho hm hbinary (subFlags_eq hu hx hr)
  exact ⟨_, hexec⟩

/-- Settles O25: the next state of `exec_modifyOp_eq_next`, whose memory is the one `poke` makes. -/
theorem incDecMemoryResult : Obligations.IncDecMemoryResult := by
  intro s i m ea r ho hea haccess hcount
  obtain ⟨f, hop, hf⟩ := exists_modifyOp_of_countResult hcount
  obtain ⟨_, hexec⟩ := exec_modifyOp_eq_next hop ho hea haccess (hf s.flags)
  exact ⟨_, hexec, (s.byteStored_poke ea r).congr rfl rfl, rfl⟩

/-- Settles O26: each is `modifyRegister` of its register by one more or one less. -/
theorem indexRegisterSteps : Obligations.IndexRegisterSteps :=
  ⟨rfl, rfl, rfl, rfl, fun s _ =>
    ⟨fun hr => modifyRegister_of_eq (increment_eq hr s.flags), fun hr => modifyRegister_of_eq (decrement_eq hr s.flags),
      fun hr => modifyRegister_of_eq (increment_eq hr s.flags), fun hr => modifyRegister_of_eq (decrement_eq hr s.flags)⟩⟩
end

section
/-! SUPPORT. The logic and shifts of 42_logic_shift.md: the shape that every form of AND, ORA and EOR and every shift of the
accumulator is, the shifts and rotates in integers, and the ring of nine bits that the rotates turn; and the settling of the
statements about them. -/

namespace Sys2Proof.Machine

/-! ### AND, ORA and EOR -/

/-- The computation of AND, ORA and EOR (R100, R101, R102). -/
def logicOp : Mnemonic → Option (Byte → Byte → Flags → Byte × Flags)
  | .and => some andOp
  | .ora => some orOp
  | .eor => some xorOp
  | _ => none

/-- Every form of AND, ORA and EOR is `accumulate` of its computation and its operand. -/
theorem exec_eq_accumulate_logicOp {i : Instr} {o : Operand} {f : Byte → Byte → Flags → Byte × Flags} (s : State)
    (hop : logicOp i.mnemonic = some f) (ho : i.operand = some o) : ∃ c, exec i s = accumulate f o c s := by
  cases i with
  | andImm | andZp | andZpX | andAbs | andAbsX | andAbsY | andIndX | andIndY | oraImm | oraZp | oraZpX | oraAbs | oraAbsX
  | oraAbsY | oraIndX | oraIndY | eorImm | eorZp | eorZpX | eorAbs | eorAbsX | eorAbsY | eorIndX | eorIndY =>
    obtain rfl := Option.some.inj hop
    obtain rfl := Option.some.inj ho
    exact ⟨_, rfl⟩
  | _ => cases hop

/-- AND, ORA and EOR complete once their operand byte can be read, with their result in A and its flags. -/
theorem exec_logicOp_eq_next {s : State} {i : Instr} {o : Operand} {m : Byte} {f : Byte → Byte → Flags → Byte × Flags}
    (hop : logicOp i.mnemonic = some f) (ho : i.operand = some o) (hm : s.operandByte o = .ok m) :
    ∃ cyc, exec i s =
      .next (((s.setA (f s.a m s.flags).1).setFlags (f s.a m s.flags).2).advance (operandLength o) cyc) := by
  obtain ⟨c, hexec⟩ := exec_eq_accumulate_logicOp s hop ho
  exact ⟨s.cycleCount o c, hexec.trans ((accumulate_eq_next f o c s _).2 ⟨m, hm, rfl⟩)⟩

/-! ### The shifts and rotates in integers -/

theorem shiftLeft_fst (v : Byte) (f : Flags) : (shiftLeft v f).1 = BitVec.ofNat 8 (2 * v.toNat) := by
  unfold shiftLeft
  bv_omega

theorem shiftRight_fst (v : Byte) (f : Flags) : (shiftRight v f).1 = BitVec.ofNat 8 (v.toNat / 2) := by
  unfold shiftRight
  bv_omega

/-- Bit 0 of `v <<< 1` is free, so the carry that enters there adds itself. -/
theorem rotateLeft_fst (v : Byte) (f : Flags) : (rotateLeft v f).1 = BitVec.ofNat 8 (2 * v.toNat + f.c.toNat) := by
  have hfree : v <<< 1 &&& (BitVec.ofBool f.c).setWidth 8 = 0 := by
    ext (_ | k) hk <;> simp
  have hcarry : ((BitVec.ofBool f.c).setWidth 8).toNat = f.c.toNat := by cases f.c <;> rfl
  unfold rotateLeft
  rw [← BitVec.add_eq_or_of_and_eq_zero _ _ hfree]
  bv_omega

/-- Bit 7 of `v >>> 1` is free, so the carry that enters there adds 128 times itself. -/
theorem rotateRight_fst (v : Byte) (f : Flags) : (rotateRight v f).1 = BitVec.ofNat 8 (v.toNat / 2 + 128 * f.c.toNat) := by
  have hfree : v >>> 1 &&& (BitVec.ofBool f.c).setWidth 8 <<< 7 = 0 := by
    ext k hk
    obtain hlt | rfl : k < 7 ∨ k = 7 := by omega
    · simp [hlt]
    · simp
  have hcarry : ((BitVec.ofBool f.c).setWidth 8 <<< 7).toNat = 128 * f.c.toNat := by cases f.c <;> rfl
  unfold rotateRight
  rw [← BitVec.add_eq_or_of_and_eq_zero _ _ hfree]
  bv_omega

/-- N and Z of the result and the bit shifted out in C, each flag as R28 and R103 to R106 give it. -/
theorem eq_of_shifted {p : Byte × Flags} {g : Flags} {r : Byte} {out : Bool} (hfst : p.1 = r)
    (hsnd : p.2 = { g.setNZ p.1 with c := out }) :
    p = (r, { g with n := r.getLsbD 7, z := decide (r = 0x00), c := out }) := by
  refine Prod.ext hfst ?_
  rw [hsnd, hfst, Flags.setNZ_eq]

/-- ASL, LSR, ROL and ROR have a computation, and it gives the shifted byte of R103 to R106 with its N and Z and the bit
shifted out in C. -/
theorem exists_modifyOp_of_shiftResult {mn : Mnemonic} {v r : Byte} {out : Bool} {g : Flags}
    (h : shiftResult v g.c mn = some (r, out)) :
    ∃ f, modifyOp mn = some f ∧ f v g = (r, { g with n := r.getLsbD 7, z := decide (r = 0x00), c := out }) := by
  cases mn with
  | asl =>
    obtain ⟨rfl, rfl⟩ := Prod.mk.inj (Option.some.inj h)
    exact ⟨shiftLeft, rfl, eq_of_shifted (shiftLeft_fst v g) rfl⟩
  | lsr =>
    obtain ⟨rfl, rfl⟩ := Prod.mk.inj (Option.some.inj h)
    exact ⟨shiftRight, rfl, eq_of_shifted (shiftRight_fst v g) rfl⟩
  | rol =>
    obtain ⟨rfl, rfl⟩ := Prod.mk.inj (Option.some.inj h)
    exact ⟨rotateLeft, rfl, eq_of_shifted (rotateLeft_fst v g) rfl⟩
  | ror =>
    obtain ⟨rfl, rfl⟩ := Prod.mk.inj (Option.some.inj h)
    exact ⟨rotateRight, rfl, eq_of_shifted (rotateRight_fst v g) rfl⟩
  | _ => cases h

/-! ### The shifts of the accumulator -/

/-- In Accumulator mode a read-modify-write is `modifyRegister` of A by its computation. -/
theorem exec_eq_modifyRegister_setA {i : Instr} {f : Byte → Flags → Byte × Flags} (s : State)
    (hop : modifyOp i.mnemonic = some f) (ho : i.operand = some .accumulator) :
    exec i s = modifyRegister State.setA s.a f s := by
  cases i with
  | aslAcc | lsrAcc | rolAcc | rorAcc =>
    obtain rfl := Option.some.inj hop
    rfl
  | _ => cases ho

/-! ### The ring of nine bits -/

/-- A byte and the carry as a ring of nine bits: bits 0 to 7 are the byte's, bit 8 is C. -/
def ringBit (p : Byte × Flags) (k : Fin 9) : Bool := if k = 8 then p.2.c else p.1.getLsbD k

/-- The nine bits say the byte and the carry. -/
theorem eq_of_ringBit_eq {p q : Byte × Flags} (h : ∀ k, ringBit p k = ringBit q k) : p.1 = q.1 ∧ p.2.c = q.2.c := by
  constructor
  · refine BitVec.eq_of_getLsbD_eq fun k hk => ?_
    simpa [ringBit, Fin.ext_iff, hk.ne] using h ⟨k, by omega⟩
  · exact h 8

/-- ROL moves every bit of the ring up by one (R105). -/
theorem ringBit_rotateLeft (v : Byte) (f : Flags) (k : Fin 9) : ringBit (rotateLeft v f) (k + 1) = ringBit (v, f) k := by
  fin_cases k <;> simp [ringBit, rotateLeft]

/-- ROR moves every bit of the ring down by one (R106). -/
theorem ringBit_rotateRight (v : Byte) (f : Flags) (k : Fin 9) : ringBit (rotateRight v f) k = ringBit (v, f) (k + 1) := by
  fin_cases k <;> simp [ringBit, rotateRight]

/-- Up by one, then down by one. -/
theorem rotateRight_rotateLeft (v : Byte) (f : Flags) :
    (rotateRight (rotateLeft v f).1 (rotateLeft v f).2).1 = v ∧
      (rotateRight (rotateLeft v f).1 (rotateLeft v f).2).2.c = f.c :=
  eq_of_ringBit_eq fun k => (ringBit_rotateRight _ _ k).trans (ringBit_rotateLeft v f k)

/-- Down by one, then up by one. -/
theorem rotateLeft_rotateRight (v : Byte) (f : Flags) :
    (rotateLeft (rotateRight v f).1 (rotateRight v f).2).1 = v ∧
      (rotateLeft (rotateRight v f).1 (rotateRight v f).2).2.c = f.c := by
  refine eq_of_ringBit_eq (q := (v, f)) fun k => ?_
  obtain ⟨j, rfl⟩ : ∃ j, k = j + 1 := ⟨k - 1, by simp⟩
  exact (ringBit_rotateLeft _ _ j).trans (ringBit_rotateRight v f j)

/-- Rotations left one after the other move every bit of the ring up by their number. -/
theorem ringBit_iterate_rotateLeft (p : Byte × Flags) (k : Fin 9) (n : Nat) :
    ringBit ((fun q : Byte × Flags => rotateLeft q.1 q.2)^[n] p) ((· + 1)^[n] k) = ringBit p k := by
  induction n with
  | zero => rfl
  | succ n ih =>
    rw [Function.iterate_succ_apply', Function.iterate_succ_apply', ringBit_rotateLeft]
    exact ih

/-- Nine places up is once around the ring. -/
theorem add_one_iterate_nine (k : Fin 9) : (· + 1)^[9] k = k := by
  decide +revert

end Sys2Proof.Machine

open Sys2Proof Sys2Proof.Machine

/-- Settles O27: the next state of `exec_logicOp_eq_next`, for each of the three operations. -/
theorem logicResult : Obligations.LogicResult := by
  intro s i o m ho hm
  refine ⟨fun hmn => ?and, fun hmn => ?ora, fun hmn => ?eor⟩
  case and | ora | eor =>
    obtain ⟨_, hexec⟩ := exec_logicOp_eq_next (congrArg logicOp hmn) ho hm
    exact ⟨_, hexec⟩

/-- Settles O28: `modifyRegister` of A by the computation of the shift. -/
theorem shiftAccumulatorResult : Obligations.ShiftAccumulatorResult := by
  intro s i r out ho hshift
  obtain ⟨f, hop, hf⟩ := exists_modifyOp_of_shiftResult hshift
  exact (exec_eq_modifyRegister_setA s hop ho).trans (modifyRegister_of_eq hf)

/-- Settles O29: the next state of `exec_modifyOp_eq_next`, whose memory is the one `poke` makes. -/
theorem shiftMemoryResult : Obligations.ShiftMemoryResult := by
  intro s i m ea r out ho hea haccess hshift
  obtain ⟨f, hop, hf⟩ := exists_modifyOp_of_shiftResult hshift
  obtain ⟨_, hexec⟩ := exec_modifyOp_eq_next hop ho hea haccess hf
  exact ⟨_, hexec, (s.byteStored_poke ea r).congr rfl rfl, rfl⟩

/-- Settles O30: ROL and ROR move the ring of nine bits by one place, in opposite directions. -/
theorem rotatesAreNineBitRotations : Obligations.RotatesAreNineBitRotations := by
  refine ⟨fun s t h => ?_, fun s t h => ?_, fun v f => eq_of_ringBit_eq (q := (v, f)) fun k => ?_⟩
  · obtain rfl := (modifyRegister_eq_next State.setA s.a rotateLeft s t).1 h
    exact ⟨_, rfl, rotateRight_rotateLeft s.a s.flags⟩
  · obtain rfl := (modifyRegister_eq_next State.setA s.a rotateRight s t).1 h
    exact ⟨_, rfl, rotateLeft_rotateRight s.a s.flags⟩
  · have hturn := ringBit_iterate_rotateLeft (v, f) k 9
    rwa [add_one_iterate_nine] at hturn
end

section
/-! SUPPORT. Control transfer of 43_branch_jump.md: the shape every branch is, what JMP Indirect, JSR and RTS answer, and what a
pushed word leaves on the stack; and the settling of the statements about them. -/

namespace Sys2Proof.Machine

/-! ### Words and stack addresses as numbers -/

theorem hiByte_eq_hiByte_iff (v w : Addr) : hiByte v = hiByte w ↔ v.toNat / 256 = w.toNat / 256 := by
  rw [← BitVec.toNat_inj, toNat_hiByte, toNat_hiByte]

theorem eq_wordOf {w : Addr} {h l : Byte} (hw : w.toNat = l.toNat + 256 * h.toNat) : w = wordOf h l := by
  apply BitVec.eq_of_toNat_eq
  rw [toNat_wordOf]
  omega

/-- A stack address is `$0100 + SP`, with no carry out of the page (20_memory.md R32). -/
theorem stackAddr_eq_add (sp : Byte) : stackAddr sp = 0x0100 + sp.setWidth 16 := by
  apply BitVec.eq_of_toNat_eq
  rw [toNat_add_index, stackAddr, toNat_wordOf]
  have hsp := sp.isLt
  have hpage : (0x01 : Byte).toNat = 1 := rfl
  have hbase : (0x0100 : Addr).toNat = 256 := rfl
  omega

/-! ### Branches -/

/-- Each of the eight branches is `branchIf` on the test R111 to R118 give it. -/
theorem exec_eq_branchIf {i : Instr} {off : Byte} {test : FlagName × Bool} (s : State)
    (htest : branchTest i.mnemonic = some test) (ho : i.operand = some (.memory (.relative off))) :
    exec i s = branchIf (s.branchTaken test) off s := by
  cases i with
  | bcc | bne | bpl | bvc =>
    obtain rfl := Option.some.inj htest
    obtain rfl := AddrMode.relative.inj (Operand.memory.inj (Option.some.inj ho))
    exact congrArg (branchIf · _ s) (beq_false _).symm
  | bcs | beq | bmi | bvs =>
    obtain rfl := Option.some.inj htest
    obtain rfl := AddrMode.relative.inj (Operand.memory.inj (Option.some.inj ho))
    exact congrArg (branchIf · _ s) (beq_true _).symm
  | _ => cases htest

/-- The cycles of a branch taken, by the pages of its target and of the next instruction (70_reset_and_hazards.md R216). -/
theorem State.takenBranchCycles_eq (s : State) (off : Byte) :
    3 + (s.crossesPage (.relative off)).toNat =
      if (s.branchTarget off).toNat / 256 = (s.pc + 2).toNat / 256 then 3 else 4 := by
  have hpage := hiByte_eq_hiByte_iff (s.branchTarget off) (s.pc + 2)
  by_cases hsame : hiByte (s.branchTarget off) = hiByte (s.pc + 2)
  · rw [if_pos (hpage.1 hsame), State.crossesPage, hsame, bne_self_eq_false]
    rfl
  · rw [if_neg (mt hpage.2 hsame), State.crossesPage, bne_iff_ne.2 hsame]
    rfl

/-! ### A word on the stack -/

/-- The state with a word stored where `pushWord` stores it, and no register changed. -/
def State.wordFrame (s : State) (w : Addr) : State :=
  (s.poke (stackAddr s.sp) (hiByte w)).poke (stackAddr (s.sp - 1)) (loByte w)

theorem State.pushWord_eq_ok_wordFrame (s t : State) (w : Addr) :
    s.pushWord w = .ok t ↔ s.accessible (stackAddr s.sp) = true ∧ s.accessible (stackAddr (s.sp - 1)) = true ∧
      t = (s.wordFrame w).setSp (s.sp - 1 - 1) :=
  s.pushWord_eq_ok t w

theorem State.PlainStack.accessible {s : State} (h : s.PlainStack) (p : Byte) : s.accessible (stackAddr p) = true :=
  (s.accessible_eq_true _).2 (.inl (h.1 p))

/-- On a plain RAM stack the second byte of a pushed word does not overwrite the first. -/
theorem State.PlainStack.peek_wordFrame {s : State} (h : s.PlainStack) (w : Addr) :
    (s.wordFrame w).peek (stackAddr s.sp) = hiByte w ∧ (s.wordFrame w).peek (stackAddr (s.sp - 1)) = loByte w := by
  obtain ⟨hram, hcells⟩ := h
  have hapart : s.cellOf (stackAddr s.sp) ≠ s.cellOf (stackAddr (s.sp - 1)) := hcells _ _ (by bv_omega)
  exact ⟨(State.peek_poke_other (s.poke _ _) _ _ _ hapart).trans (s.peek_poke_same _ _ (hram _)),
    State.peek_poke_same (s.poke _ _) _ _ (hram _)⟩

/-- An address that shares no cell with the two stack addresses reads as before. -/
theorem State.peek_wordFrame_other {s : State} {b : Addr} (w : Addr) (hhigh : s.cellOf b ≠ s.cellOf (stackAddr s.sp))
    (hlow : s.cellOf b ≠ s.cellOf (stackAddr (s.sp - 1))) : (s.wordFrame w).peek b = s.peek b :=
  (State.peek_poke_other (s.poke _ _) _ _ _ hlow).trans (s.peek_poke_other _ _ _ hhigh)

/-! ### Jumps, calls and returns -/

/-- A meaning that ends by a function of what it computed answers exactly that function's values. -/
theorem outcome_bind_pure_eq_next {α : Type} (x : Access α) (g : α → State) (t : State) :
    outcome (x >>= fun a => pure (g a)) = .next t ↔ ∃ a, x = .ok a ∧ t = g a := by
  simp only [outcome_eq_next, access_bind_eq_ok, pure, Except.pure, Except.ok.injEq, eq_comm (b := t)]

theorem exec_jmpInd_eq_next (ptr : Addr) (s t : State) :
    exec (.jmpInd ptr) s = .next t ↔ s.accessible ptr = true ∧ s.accessible (pointerHigh ptr) = true ∧
      t = s.endAt (wordOf (s.peek (pointerHigh ptr)) (s.peek ptr)) 5 := by
  refine (outcome_bind_pure_eq_next _ (fun target => s.endAt target 5) t).trans ?_
  simp only [State.effectiveAddress_indirect_eq_ok]
  exact ⟨fun ⟨_, ⟨hlow, hhigh, htarget⟩, ht⟩ => ⟨hlow, hhigh, htarget ▸ ht⟩,
    fun ⟨hlow, hhigh, ht⟩ => ⟨_, ⟨hlow, hhigh, rfl⟩, ht⟩⟩

theorem exec_jsr_eq_next (addr : Addr) (s t : State) :
    exec (.jsr addr) s = .next t ↔ s.accessible (stackAddr s.sp) = true ∧ s.accessible (stackAddr (s.sp - 1)) = true ∧
      t = ((s.wordFrame (s.pc + 2)).setSp (s.sp - 1 - 1)).endAt addr 6 := by
  refine (outcome_bind_pure_eq_next _ (fun u : State => u.endAt addr 6) t).trans ?_
  simp only [State.pushWord_eq_ok_wordFrame]
  exact ⟨fun ⟨_, ⟨hhigh, hlow, hu⟩, ht⟩ => ⟨hhigh, hlow, hu ▸ ht⟩,
    fun ⟨hhigh, hlow, ht⟩ => ⟨_, ⟨hhigh, hlow, rfl⟩, ht⟩⟩

theorem exec_rts_eq_next (s t : State) :
    exec .rts s = .next t ↔
      s.accessible (stackAddr (s.sp + 1)) = true ∧ s.accessible (stackAddr (s.sp + 1 + 1)) = true ∧
        t = (s.setSp (s.sp + 1 + 1)).endAt
          (wordOf (s.peek (stackAddr (s.sp + 1 + 1))) (s.peek (stackAddr (s.sp + 1))) + 1) 6 := by
  refine (outcome_bind_pure_eq_next _ (fun wu : Addr × State => wu.2.endAt (wu.1 + 1) 6) t).trans ?_
  simp only [Prod.exists, State.pullWord_eq_ok]
  exact ⟨fun ⟨_, _, ⟨hlow, hhigh, hw, hu⟩, ht⟩ => ⟨hlow, hhigh, hw ▸ hu ▸ ht⟩,
    fun ⟨hlow, hhigh, ht⟩ => ⟨_, _, ⟨hlow, hhigh, rfl, rfl⟩, ht⟩⟩

end Sys2Proof.Machine

open Sys2Proof Sys2Proof.Machine

/-- Settles O31: both outcomes of `branchIf`, with the target by number. -/
theorem branchResult : Obligations.BranchResult := by
  intro s i off test target htest ho htarget
  obtain rfl : target = s.branchTarget off :=
    BitVec.eq_of_toNat_eq (Int.ofNat.inj (htarget.trans (s.toNat_branchTarget off).symm))
  rw [exec_eq_branchIf s htest ho, ← s.takenBranchCycles_eq off]
  refine ⟨fun htaken => ?taken, fun hnot => ?notTaken⟩
  case taken => exact (branchIf_eq_next _ off s _).2 (.inl ⟨htaken, rfl⟩)
  case notTaken => exact (branchIf_eq_next _ off s _).2 (.inr ⟨hnot, rfl⟩)

/-- Settles O32: JMP Absolute is the end of an instruction at its operand. -/
theorem jumpAbsoluteResult : Obligations.JumpAbsoluteResult := fun _ _ => ⟨rfl, rfl⟩

/-- Settles O33: the pointer's high byte is read at `pointerHigh`, which wraps in the page. -/
theorem jumpIndirectResult : Obligations.JumpIndirectResult := by
  intro s w q target hq hlow hhigh htarget
  obtain rfl : q = pointerHigh w := BitVec.eq_of_toNat_eq (hq.trans (toNat_pointerHigh w).symm)
  obtain rfl := eq_wordOf htarget
  exact (exec_jmpInd_eq_next w s _).2 ⟨hlow, hhigh, rfl⟩

/-- Settles O34: the word JSR pushes is PC + 2, and a register write after the push changes no byte of memory. -/
theorem jsrResult : Obligations.JsrResult := by
  intro s addr hhigh hlow
  have hsp : s.sp - 2 = s.sp - 1 - 1 := by bv_omega
  refine ⟨_, (exec_jsr_eq_next addr s _).2 ⟨hhigh, hlow, rfl⟩, ?state, fun hplain => ?pushed,
    fun b => State.peek_wordFrame_other (s.pc + 2)⟩
  case state =>
    rw [hsp]
    rfl
  case pushed =>
    rw [← stackAddr_eq_add, ← stackAddr_eq_add]
    exact hplain.peek_wordFrame (s.pc + 2)

/-- Settles O35: the word RTS pulls, plus one. -/
theorem rtsResult : Obligations.RtsResult := by
  intro s p q target hp hq hlow hhigh htarget
  have hsp : s.sp + 2 = s.sp + 1 + 1 := by bv_omega
  rw [← stackAddr_eq_add] at hp hq
  rw [hsp] at hq ⊢
  subst hp hq
  obtain rfl : target = wordOf (s.peek (stackAddr (s.sp + 1 + 1))) (s.peek (stackAddr (s.sp + 1))) + 1 := by
    apply BitVec.eq_of_toNat_eq
    have hone : (1 : Addr).toNat = 1 := rfl
    rw [htarget, BitVec.toNat_add, toNat_wordOf, hone]
    omega
  exact (exec_rts_eq_next s _).2 ⟨hlow, hhigh, rfl⟩

/-- Settles O36: RTS pulls the two bytes from where JSR put them, and PC + 2 plus one is the next instruction. -/
theorem jsrThenRtsReturns : Obligations.JsrThenRtsReturns := by
  intro s t h addr hplain hjsr hcfg hsp hstack
  obtain ⟨-, -, rfl⟩ := (exec_jsr_eq_next addr s t).1 hjsr
  obtain ⟨hhigh, hlow⟩ := hplain.peek_wordFrame (s.pc + 2)
  have haccess (p : Byte) : h.accessible (stackAddr p) = true := (State.accessible_congr hcfg _).trans (hplain.accessible p)
  have hspLow : h.sp + 1 = s.sp - 1 := by rw [hsp]; exact BitVec.sub_add_cancel _ _
  have hspHigh : h.sp + 1 + 1 = s.sp := by rw [hspLow]; exact BitVec.sub_add_cancel _ _
  refine ⟨_, (exec_rts_eq_next h _).2 ⟨haccess _, haccess _, rfl⟩, ?pc, hspHigh, rfl, rfl⟩
  case pc =>
    have hpeekLow : h.peek (stackAddr (h.sp + 1)) = loByte (s.pc + 2) := by rw [hspLow]; exact (hstack _).trans hlow
    have hpeekHigh : h.peek (stackAddr (h.sp + 1 + 1)) = hiByte (s.pc + 2) := by rw [hspHigh]; exact (hstack _).trans hhigh
    rw [State.endAt_pc, hpeekLow, hpeekHigh, wordOf_hiByte_loByte]
    exact BitVec.add_assoc _ _ _
end

section
/-! SUPPORT. The stack and the flags of 44_stack_flags.md: what a push and a pull leave, alone and as the body of an instruction,
and when a boundary takes an IRQ; and the settling of the statements about them. -/

namespace Sys2Proof.Machine

/-! ### Push and pull -/

/-- A push completes at an accessible stack address, stores there and moves SP (R130). -/
theorem State.exists_push {s : State} (h : s.accessible (stackAddr s.sp) = true) (v : Byte) :
    ∃ t, s.push v = .ok t ∧ s.ByteStored t (stackAddr s.sp) v ∧ t = { s with mem := t.mem, sp := s.sp - 1 } :=
  ⟨_, (s.push_eq_ok _ v).2 ⟨h, rfl⟩, (s.byteStored_poke _ v).congr rfl rfl, rfl⟩

/-- PHA and PHP are this: a push of a byte, and the end of the instruction (R132, R133). -/
theorem exists_push_advance {s : State} (h : s.accessible (stackAddr s.sp) = true) (v : Byte) :
    ∃ t, outcome (s.push v >>= fun u => pure (u.advance 1 3)) = .next t ∧ s.ByteStored t (stackAddr s.sp) v ∧
      t = { s with mem := t.mem, sp := s.sp - 1, pc := s.pc + 1, ipoll := s.flags.i, cycles := s.cycles + 3 } := by
  obtain ⟨u, hpush, hstored, hu⟩ := State.exists_push h v
  refine ⟨u.advance 1 3, (outcome_bind_pure_eq_next _ _ _).2 ⟨u, hpush, rfl⟩, hstored.congr rfl rfl, ?_⟩
  rw [hu]
  rfl

/-- A pull is a read at the next stack address (R131). -/
theorem State.pull_of_read {s : State} {v : Byte} (h : s.read (stackAddr (s.sp + 1)) = .ok v) :
    s.pull = .ok (v, s.setSp (s.sp + 1)) := by
  obtain ⟨haccess, hv⟩ := (s.read_eq_ok _ v).1 h
  exact (s.pull_eq_ok _ v).2 ⟨haccess, hv, rfl⟩

/-- In every state `u` with the memory and the SP a push to `ram` left, a pull gives the pushed byte and the old SP. -/
theorem State.pull_of_push {s t u : State} {v : Byte} (hram : s.classOf (stackAddr s.sp) = .ram) (hpush : s.push v = .ok t)
    (hsp : u.sp = t.sp) (hmem : u.mem = t.mem) (hcfg : u.cfg = t.cfg) : u.pull = .ok (v, u.setSp s.sp) := by
  obtain ⟨haccess, rfl⟩ := (s.push_eq_ok t v).1 hpush
  have htop : u.sp + 1 = s.sp := by rw [hsp]; exact BitVec.sub_add_cancel _ _
  have hpeek : u.peek (stackAddr s.sp) = v := (State.peek_congr hcfg hmem _).trans (s.peek_poke_same _ v hram)
  rw [State.pull_eq_ok, htop]
  exact ⟨(State.accessible_congr hcfg _).trans haccess, hpeek.symm, rfl⟩

theorem exec_php_of_push {s t : State} (h : s.push (s.flags.toByte true) = .ok t) : exec .php s = .next (t.advance 1 3) :=
  (outcome_bind_pure_eq_next _ _ _).2 ⟨t, h, rfl⟩

theorem exec_pla_of_pull {s t : State} {v : Byte} (h : s.pull = .ok (v, t)) :
    exec .pla s = .next (((t.setA v).setFlags (s.flags.setNZ v)).advance 1 4) :=
  (outcome_bind_pure_eq_next _ (fun p : Byte × State => ((p.2.setA p.1).setFlags (s.flags.setNZ p.1)).advance 1 4) _).2
    ⟨_, h, rfl⟩

theorem exec_plp_of_pull {s t : State} {v : Byte} (h : s.pull = .ok (v, t)) :
    exec .plp s = .next ((t.setFlags (Flags.ofByte v)).advanceLate s.flags.i 1 4) :=
  (outcome_bind_pure_eq_next _ (fun p : Byte × State => (p.2.setFlags (Flags.ofByte p.1)).advanceLate s.flags.i 1 4) _).2
    ⟨_, h, rfl⟩

/-! ### The interrupt mask -/

/-- A boundary takes an IRQ only as the last of R184's three events, and only where `Ipoll` is 0. -/
theorem State.event_eq_irq (s : State) (b : Boundary) :
    s.event b = some .irq ↔
      b.reset = none ∧ s.nmiPending = false ∧ s.irqLine = true ∧ s.ipoll = false ∧ b.defer = false := by
  unfold State.event
  cases b.reset with
  | some r => simp
  | none => cases s.nmiPending <;> cases b.defer <;> simp

/-- The same at the coming boundary, by what the environment does there. -/
theorem State.sampled_event_eq_irq (s : State) :
    s.sampled.event s.boundary = some .irq ↔
      s.boundary.reset = none ∧ (s.nmiPending || s.boundary.nmiEdge) = false ∧ s.boundary.irqLine = true ∧
        s.ipoll = false ∧ s.boundary.defer = false := by
  rw [s.sampled_eq, State.event_eq_irq]

end Sys2Proof.Machine

open Sys2Proof Sys2Proof.Machine

/-- Settles O15: `exists_push`, with the address and SP as numbers. -/
theorem pushStoresThenDecrements : Obligations.PushStoresThenDecrements := by
  intro s v haccess
  rw [← stackAddr_eq_add] at haccess ⊢
  obtain ⟨t, hpush, hstored, ht⟩ := State.exists_push haccess v
  have hsp : t.sp = s.sp - 1 := by rw [ht]
  exact ⟨t, hpush, hsp ▸ ht, by bv_omega, hstored⟩

/-- Settles O16; the pull comes straight after the push. -/
theorem pullAfterPush : Obligations.PullAfterPush := by
  refine ⟨fun s haccess => ?pull, fun s t v hram hpush => ?pushThenPull⟩
  case pull =>
    rw [← stackAddr_eq_add] at haccess ⊢
    exact State.pull_of_read ((s.read_eq_ok _ _).2 ⟨haccess, rfl⟩)
  case pushThenPull =>
    rw [← stackAddr_eq_add] at hram
    exact ⟨_, State.pull_of_push hram hpush rfl rfl rfl, rfl, rfl⟩

/-- Settles O37: both are `exists_push_advance`, PHP of the status byte with bit 4 set. -/
theorem pushInstructions : Obligations.PushInstructions := by
  intro s p hp haccess
  rw [← stackAddr_eq_add] at hp
  subst hp
  obtain ⟨t, hexec, hstored, ht⟩ := exists_push_advance haccess (s.flags.toByte true)
  obtain ⟨hn, hv, hfive, hfour, hd, hi, hz, hc⟩ := s.flags.getLsbD_toByte true
  exact ⟨exists_push_advance haccess s.a, t, _, hexec, hstored, hn, hv, hfive, hfour, hd, hi, hz, hc, ht⟩

/-- Settles O38: the byte read is the byte pulled. -/
theorem pullInstructions : Obligations.PullInstructions := by
  intro s v hread
  rw [← stackAddr_eq_add] at hread
  have hpull := State.pull_of_read hread
  exact ⟨exec_pla_of_pull hpull, exec_plp_of_pull hpull⟩

/-- Settles O39: PLP pulls the status byte PHP pushed, and the end of PHP moves neither SP nor memory. -/
theorem phpThenPlpKeepsFlags : Obligations.PhpThenPlpKeepsFlags := by
  intro s hram
  rw [← stackAddr_eq_add] at hram
  obtain ⟨t, hpush, -⟩ := State.exists_push ((s.accessible_eq_true _).2 (.inl hram)) (s.flags.toByte true)
  have hpull := State.pull_of_push (u := t.advance 1 3) hram hpush rfl rfl rfl
  exact ⟨_, _, exec_php_of_push hpush, exec_plp_of_pull hpull, s.flags.ofByte_toByte true, rfl, rfl⟩

/-- Settles O43: after either instruction `Ipoll` is the I of before, and `sampled_event_eq_irq` says what that decides. -/
theorem interruptMaskInstructions : Obligations.InterruptMaskInstructions := by
  refine fun s => ⟨rfl, rfl, fun t hcli hi hirq => ?masked, fun t hsei hi hreset hnmi hline hdefer => ?taken⟩
  case masked =>
    obtain rfl := Host.Outcome.next.inj hcli
    obtain ⟨-, -, -, hipoll, -⟩ := (State.sampled_event_eq_irq _).1 hirq
    exact Bool.noConfusion (hipoll.symm.trans hi)
  case taken =>
    have hipoll : t.ipoll = s.flags.i := by
      obtain rfl := Host.Outcome.next.inj hsei
      rfl
    exact t.sampled_event_eq_irq.2 ⟨hreset, hnmi, hline, hipoll.trans hi, hdefer⟩

/-- Settles O40: TSX is `transferInto` X of SP, TXS a write of SP with no flag written. -/
theorem stackPointerTransfers : Obligations.StackPointerTransfers :=
  ⟨rfl, rfl, fun s => ⟨(transferInto_eq_next State.setX s.sp s _).2 rfl, rfl⟩⟩

/-- Settles O42: each is `writeFlags` of the flags with its own one changed. -/
theorem flagInstructions : Obligations.FlagInstructions :=
  ⟨rfl, rfl, rfl, rfl, rfl, fun s =>
    ⟨(writeFlags_eq_next { s.flags with c := false } s _).2 rfl, (writeFlags_eq_next { s.flags with c := true } s _).2 rfl,
      (writeFlags_eq_next { s.flags with v := false } s _).2 rfl, (writeFlags_eq_next { s.flags with d := false } s _).2 rfl,
      (writeFlags_eq_next { s.flags with d := true } s _).2 rfl⟩⟩
end

section
/-! SUPPORT. The compares and the bit test of 45_compare_bit.md: their flags as numbers and bits, and the shape that every form of
them is; and the settling of the statements about them. -/

namespace Sys2Proof.Machine

/-! ### CMP, CPX and CPY -/

/-- A difference modulo 256 is zero exactly when the two bytes are equal, so Z says equality (R150). -/
theorem Flags.compare_eq {reg m r : Byte} (hr : (r.toNat : Int) = (reg.toNat - m.toNat) % 256) (f : Flags) :
    f.compare reg m = { f with n := r.getLsbD 7, z := decide (reg = m), c := decide (m.toNat ≤ reg.toNat) } := by
  obtain rfl : r = reg - m := by bv_omega
  have hzero : reg - m = 0x00 ↔ reg = m := by bv_omega
  simp only [compare, setNZ_eq, hzero]

/-- Every form of CMP, CPX and CPY is `compareWith` of its register and its operand. -/
theorem exec_eq_compareWith {s : State} {i : Instr} {o : Operand} {reg : Byte}
    (hreg : s.comparedRegister i.mnemonic = some reg) (ho : i.operand = some o) : ∃ c, exec i s = compareWith reg o c s := by
  cases i with
  | cmpImm | cmpZp | cmpZpX | cmpAbs | cmpAbsX | cmpAbsY | cmpIndX | cmpIndY | cpxImm | cpxZp | cpxAbs | cpyImm | cpyZp
  | cpyAbs =>
    obtain rfl := Option.some.inj hreg
    obtain rfl := Option.some.inj ho
    exact ⟨_, rfl⟩
  | _ => cases hreg

/-- A compare completes once its operand byte can be read, and writes flags only. -/
theorem exec_compare_eq_next {s : State} {i : Instr} {o : Operand} {reg m : Byte}
    (hreg : s.comparedRegister i.mnemonic = some reg) (ho : i.operand = some o) (hm : s.operandByte o = .ok m) :
    ∃ cyc, exec i s = .next ((s.setFlags (s.flags.compare reg m)).advance (operandLength o) cyc) := by
  obtain ⟨c, hexec⟩ := exec_eq_compareWith hreg ho
  exact ⟨s.cycleCount o c, hexec.trans ((compareWith_eq_next reg o c s _).2 ⟨m, hm, rfl⟩)⟩

/-! ### BIT -/

theorem Flags.bitTest_eq (f : Flags) (a m : Byte) :
    f.bitTest a m = { f with n := m.getLsbD 7, v := m.getLsbD 6, z := decide (a &&& m = 0x00) } := by
  simp only [bitTest, beq_eq_decide]

/-- Both forms of BIT are `bitTest` of their operand. -/
theorem exec_eq_bitTest {i : Instr} {o : Operand} (s : State) (hmn : i.mnemonic = .bit) (ho : i.operand = some o) :
    ∃ c, exec i s = bitTest o c s := by
  cases i with
  | bitZp | bitAbs =>
    obtain rfl := Option.some.inj ho
    exact ⟨_, rfl⟩
  | _ => cases hmn

/-- BIT completes once its operand byte can be read, and writes flags only. -/
theorem exec_bit_eq_next {s : State} {i : Instr} {o : Operand} {m : Byte} (hmn : i.mnemonic = .bit)
    (ho : i.operand = some o) (hm : s.operandByte o = .ok m) :
    ∃ cyc, exec i s = .next ((s.setFlags (s.flags.bitTest s.a m)).advance (operandLength o) cyc) := by
  obtain ⟨c, hexec⟩ := exec_eq_bitTest s hmn ho
  exact ⟨s.cycleCount o c, hexec.trans ((bitTest_eq_next o c s _).2 ⟨m, hm, rfl⟩)⟩

end Sys2Proof.Machine

open Sys2Proof Sys2Proof.Machine

/-- Settles O44: the next state of `exec_compare_eq_next`, with the flags of `Flags.compare_eq`. -/
theorem compareResult : Obligations.CompareResult := by
  intro s i o reg m r ho hm hreg hr
  obtain ⟨_, hexec⟩ := exec_compare_eq_next hreg ho hm
  rw [Flags.compare_eq hr] at hexec
  exact ⟨_, hexec⟩

/-- Settles O45: the next state of `exec_bit_eq_next`, with the flags of `Flags.bitTest_eq`. -/
theorem bitResult : Obligations.BitResult := by
  intro s i o m hmn ho hm
  obtain ⟨_, hexec⟩ := exec_bit_eq_next hmn ho hm
  rw [Flags.bitTest_eq] at hexec
  exact ⟨_, hexec⟩
end

section
/-! SUPPORT. The system instructions of 46_system.md: which instruction NOP is, what an exception stores and a return pulls with
SP counted from where it stood, and BRK and RTI by them; and the settling of the statements about them. -/

namespace Sys2Proof.Machine

/-! ### NOP -/

/-- The mnemonic NOP has one form (R155). -/
theorem eq_nop_of_mnemonic {i : Instr} (h : i.mnemonic = .nop) : i = .nop := by
  cases i with
  | nop => rfl
  | _ => cases h

/-! ### BRK -/

/-- An exception is taken once its stack and vector addresses are accessible: `f` is the state with its three bytes stored, and
the vector is read in `f` (R156, 60_exceptions.md R185). -/
theorem State.takeException_of_accessible {s f : State} {ret vector : Addr} {brk : Bool}
    (hfirst : s.accessible (stackAddr s.sp) = true) (hsecond : s.accessible (stackAddr (s.sp - 1)) = true)
    (hthird : s.accessible (stackAddr (s.sp - 2)) = true) (hlow : s.accessible vector = true)
    (hhigh : s.accessible (vector + 1) = true)
    (hf : f = ((s.poke (stackAddr s.sp) (hiByte ret)).poke (stackAddr (s.sp - 1)) (loByte ret)).poke (stackAddr (s.sp - 2))
      (s.flags.toByte brk)) :
    s.takeException ret brk vector = .ok { f with
      sp := s.sp - 3, flags := { s.flags with i := true }, ipoll := true
      pc := wordOf (f.peek (vector + 1)) (f.peek vector), cycles := s.cycles + 7 } := by
  have hsub_two : s.sp - 2 = s.sp - 1 - 1 := by bv_omega
  have hsub_three : s.sp - 3 = s.sp - 1 - 1 - 1 := by bv_omega
  rw [hsub_two] at hthird hf
  rw [hsub_three]
  subst hf
  exact (s.takeException_eq_ok _ ret brk vector).2 ⟨hfirst, hsecond, hthird, hlow, hhigh, rfl⟩

/-- BRK is an exception with return address PC + 2 and bit 4 of the status byte set; I does not mask it (R156). -/
theorem exec_brk_eq_next (s t : State) : exec .brk s = .next t ↔ s.takeException (s.pc + 2) true irqVector = .ok t :=
  outcome_eq_next _ _

/-! ### RTI -/

/-- A return from an exception is three reads upward from SP: the flags, then PC, low byte first (R157, 60_exceptions.md
R189). -/
theorem State.returnFromException_of_read {s : State} {p l h : Byte} (hflags : s.read (stackAddr (s.sp + 1)) = .ok p)
    (hlow : s.read (stackAddr (s.sp + 2)) = .ok l) (hhigh : s.read (stackAddr (s.sp + 3)) = .ok h) :
    s.returnFromException = .ok { s with
      sp := s.sp + 3, flags := Flags.ofByte p, ipoll := (Flags.ofByte p).i, pc := wordOf h l, cycles := s.cycles + 6 } := by
  have hadd_two : s.sp + 2 = s.sp + 1 + 1 := by bv_omega
  have hadd_three : s.sp + 3 = s.sp + 1 + 1 + 1 := by bv_omega
  rw [hadd_two] at hlow
  rw [hadd_three] at hhigh ⊢
  obtain ⟨haccessFlags, rfl⟩ := (s.read_eq_ok _ p).1 hflags
  obtain ⟨haccessLow, rfl⟩ := (s.read_eq_ok _ l).1 hlow
  obtain ⟨haccessHigh, rfl⟩ := (s.read_eq_ok _ h).1 hhigh
  exact (s.returnFromException_eq_ok _).2 ⟨haccessFlags, haccessLow, haccessHigh, rfl⟩

theorem exec_rti_eq_next (s t : State) : exec .rti s = .next t ↔ s.returnFromException = .ok t :=
  outcome_eq_next _ _

end Sys2Proof.Machine

open Sys2Proof Sys2Proof.Machine

/-- Settles O47: BRK's exception, with the vector of IRQ and BRK at $FFFE. -/
theorem brkResult : Obligations.BrkResult := by
  intro s f hfirst hsecond hthird hlow hhigh hf
  exact (exec_brk_eq_next s _).2 (State.takeException_of_accessible hfirst hsecond hthird hlow hhigh hf)

/-- Settles O48: the restored I that `Ipoll` takes is bit 2 of the status byte. -/
theorem rtiResult : Obligations.RtiResult := by
  intro s v l h hflags hlow hhigh
  exact (exec_rti_eq_next s _).2 (State.returnFromException_of_read hflags hlow hhigh)

/-- Settles O46: NOP is the end of a one-byte instruction and nothing before it. -/
theorem nopResult : Obligations.NopResult :=
  ⟨rfl, fun _ => eq_nop_of_mnemonic, fun _ => rfl⟩
end

section
/-! SUPPORT. The boundary of 60_exceptions.md: what is sampled there, which event R184 takes, and what an exception leaves on the
stack; and the settling of the statements about steps, events and the return from them. -/

namespace Sys2Proof.Machine

/-! ### The sampled state -/

@[simp] theorem State.sampled_inputs (s : State) : s.sampled.inputs = s.inputs.tail := by
  rw [s.sampled_eq]

@[simp] theorem State.sampled_irqLine (s : State) : s.sampled.irqLine = s.boundary.irqLine := by
  rw [s.sampled_eq]

@[simp] theorem State.sampled_nmiPending (s : State) :
    s.sampled.nmiPending = (s.nmiPending || s.boundary.nmiEdge) := by
  rw [s.sampled_eq]

/-- What a state that keeps the sampled environment has of the boundary's inputs (R182, R183, R197). -/
theorem State.SameEnvironment.of_sampled {s t : State} (h : s.sampled.SameEnvironment t) :
    t.inputs = s.inputs.tail ∧ t.irqLine = s.boundary.irqLine ∧ t.cfg = s.cfg ∧
      t.nmiPending = (s.nmiPending || s.boundary.nmiEdge) := by
  obtain ⟨hnmi, hirq, hinputs, -, hcfg⟩ := h
  exact ⟨hinputs.trans s.sampled_inputs, hirq.trans s.sampled_irqLine, hcfg.trans s.sampled_cfg,
    hnmi.trans s.sampled_nmiPending⟩

/-! ### The event a boundary takes -/

/-- An asserted reset goes before everything else (R184). -/
theorem State.event_of_reset (s : State) {b : Boundary} {r : ResetInput} (h : b.reset = some r) :
    s.event b = some (.reset r) := by
  simp [State.event, h]

theorem State.event_eq_nmi (s : State) (b : Boundary) :
    s.event b = some .nmi ↔ b.reset = none ∧ s.nmiPending = true ∧ b.defer = false := by
  unfold State.event
  cases b.reset with
  | some r => simp
  | none => cases s.nmiPending <;> cases b.defer <;> simp

/-- No event is taken where none is asserted and enabled, or the boundary puts off the one that is. -/
theorem State.event_eq_none (s : State) (b : Boundary) :
    s.event b = none ↔ b.reset = none ∧
      (b.defer = true ∨ s.nmiPending = false ∧ (s.irqLine = false ∨ s.ipoll = true)) := by
  unfold State.event
  cases b.reset with
  | some r => simp
  | none => cases s.nmiPending <;> cases b.defer <;> cases s.irqLine <;> simp

/-- A step takes the event of its boundary. -/
theorem step_eq_takeEvent {s : State} {e : Event} (h : s.sampled.event s.boundary = some e) :
    step s = outcome (s.sampled.takeEvent e) := by
  simp [step, h]

theorem step_eq_runFetched {s : State} (h : s.sampled.event s.boundary = none) :
    step s = runFetched s.sampled s.sampled.fetch := by
  simp [step, h]

/-! ### The exception's bytes -/

theorem State.exceptionFrame_eq_poke_wordFrame (s : State) (ret : Addr) (brk : Bool) :
    s.exceptionFrame ret brk = (s.wordFrame ret).poke (stackAddr (s.sp - 1 - 1)) (s.flags.toByte brk) := rfl

/-- On a plain RAM stack the three bytes of an exception lie side by side, none over another. -/
theorem State.PlainStack.peek_exceptionFrame {s : State} (h : s.PlainStack) (ret : Addr) (brk : Bool) :
    (s.exceptionFrame ret brk).peek (stackAddr s.sp) = hiByte ret ∧
      (s.exceptionFrame ret brk).peek (stackAddr (s.sp - 1)) = loByte ret ∧
        (s.exceptionFrame ret brk).peek (stackAddr (s.sp - 1 - 1)) = s.flags.toByte brk := by
  obtain ⟨hram, hcells⟩ := h
  obtain ⟨hhigh, hlow⟩ := State.PlainStack.peek_wordFrame ⟨hram, hcells⟩ ret
  rw [s.exceptionFrame_eq_poke_wordFrame]
  have hapart (p : Byte) (hp : p ≠ s.sp - 1 - 1) :
      (s.wordFrame ret).cellOf (stackAddr p) ≠ (s.wordFrame ret).cellOf (stackAddr (s.sp - 1 - 1)) := hcells _ _ hp
  exact ⟨(State.peek_poke_other _ _ _ _ (hapart _ (by bv_omega))).trans hhigh,
    (State.peek_poke_other _ _ _ _ (hapart _ (by bv_omega))).trans hlow,
    State.peek_poke_same (s.wordFrame ret) _ _ (hram _)⟩

/-- The entry of an interrupt at a boundary: an exception of the sampled state, said with the registers and the parameters of
before, which sampling leaves. -/
theorem State.sampled_takeException_of_accessible {s f : State} {vector : Addr}
    (hfirst : s.accessible (stackAddr s.sp) = true) (hsecond : s.accessible (stackAddr (s.sp - 1)) = true)
    (hthird : s.accessible (stackAddr (s.sp - 2)) = true) (hlow : s.accessible vector = true)
    (hhigh : s.accessible (vector + 1) = true)
    (hf : f = ((s.sampled.poke (stackAddr s.sp) (hiByte s.pc)).poke (stackAddr (s.sp - 1)) (loByte s.pc)).poke
      (stackAddr (s.sp - 2)) (s.flags.toByte false)) :
    s.sampled.takeException s.sampled.pc false vector = .ok { f with
      sp := s.sp - 3, flags := { s.flags with i := true }, ipoll := true
      pc := wordOf (f.peek (vector + 1)) (f.peek vector), cycles := s.cycles + 7 } := by
  have hentry := State.takeException_of_accessible (s := s.sampled) (f := f) (ret := s.sampled.pc) (vector := vector)
    (brk := false)
  simp only [State.sampled_accessible, State.sampled_sp, State.sampled_pc, State.sampled_flags, State.sampled_cycles]
    at hentry ⊢
  exact hentry hfirst hsecond hthird hlow hhigh hf

end Sys2Proof.Machine

open Sys2Proof Sys2Proof.Machine

/-- Settles O2: an instruction and an IRQ entry keep the sampled environment, an NMI entry and a reset all of it but the pending
bit. -/
theorem stepAppliesBoundaryInputs : Obligations.StepAppliesBoundaryInputs := by
  intro s t hstep
  obtain ⟨e, hevent, htake⟩ | ⟨hevent, i, -, hexec⟩ := (step_eq_next s t).1 hstep
  · rw [hevent]
    cases e with
    | reset r =>
      obtain ⟨-, -, rfl⟩ := (State.resetSequence_eq_ok _ t r).1 htake
      simp
    | nmi =>
      obtain ⟨u, hentry, rfl⟩ := (State.nmiEntry_eq_ok _ t).1 htake
      obtain ⟨hinputs, hirq, hcfg, -⟩ := (State.takeException_changes hentry).environment.of_sampled
      exact ⟨hinputs, hirq, hcfg, rfl⟩
    | irq => exact (State.takeException_changes htake).environment.of_sampled
  · rw [hevent]
    exact (exec_changes hexec).environment.of_sampled

/-- Settles O3: each clause names the event of its boundary, and the step takes that event. -/
theorem boundaryPriority : Obligations.BoundaryPriority := by
  refine fun s => ⟨fun r hreset => ?reset, fun hreset hnmi hdefer => ?nmi,
    fun hreset hnmi hline hipoll hdefer => ?irq, fun hreset hnone => ?fetch⟩
  case reset => exact step_eq_takeEvent (s.sampled.event_of_reset hreset)
  case nmi => exact step_eq_takeEvent ((State.event_eq_nmi _ _).2 ⟨hreset, s.sampled_nmiPending.trans hnmi, hdefer⟩)
  case irq => exact step_eq_takeEvent (s.sampled_event_eq_irq.2 ⟨hreset, hnmi, hline, hipoll, hdefer⟩)
  case fetch => exact step_eq_runFetched ((State.event_eq_none _ _).2 ⟨hreset, by simpa using hnone⟩)

/-- Settles O50: the entry of the sampled state, with the pending bit cleared. -/
theorem nmiEntryResult : Obligations.NmiEntryResult := by
  intro s f hreset hnmi hdefer hfirst hsecond hthird hlow hhigh hf
  have hevent := (State.event_eq_nmi s.sampled s.boundary).2 ⟨hreset, s.sampled_nmiPending.trans hnmi, hdefer⟩
  rw [step_eq_takeEvent hevent, outcome_eq_next]
  exact (State.nmiEntry_eq_ok _ _).2
    ⟨_, State.sampled_takeException_of_accessible hfirst hsecond hthird hlow hhigh hf, rfl⟩

/-- Settles O51: the entry of the sampled state. -/
theorem irqEntryResult : Obligations.IrqEntryResult := by
  intro s f hreset hnmi hline hipoll hdefer hfirst hsecond hthird hlow hhigh hf
  rw [step_eq_takeEvent (s.sampled_event_eq_irq.2 ⟨hreset, hnmi, hline, hipoll, hdefer⟩), outcome_eq_next]
  exact State.sampled_takeException_of_accessible hfirst hsecond hthird hlow hhigh hf

/-- Settles O52: the reset sequence of the sampled state. -/
theorem resetTaken : Obligations.ResetTaken := by
  intro s r hreset hlow hhigh
  have hsequence := (State.resetSequence_eq_ok s.sampled _ r).2
    ⟨(s.sampled_accessible _).trans hlow, (s.sampled_accessible _).trans hhigh, rfl⟩
  refine ⟨_, (step_eq_takeEvent (s.sampled.event_of_reset hreset)).trans (congrArg outcome hsequence), ?_⟩
  cases r with
  | keep | draw => simp [State.resetRegisters, resetVector]

/-- Settles O49: RTI pulls the three bytes from where the exception put them. -/
theorem exceptionThenRtiReturns : Obligations.ExceptionThenRtiReturns := by
  intro s t h ret brk vector hplain hentry hcfg hsp hstack
  obtain ⟨-, -, -, -, -, rfl⟩ := (s.takeException_eq_ok t ret brk vector).1 hentry
  obtain ⟨hhigh, hlow, hflags⟩ := hplain.peek_exceptionFrame ret brk
  have haccess (p : Byte) : h.accessible (stackAddr p) = true := (State.accessible_congr hcfg _).trans (hplain.accessible p)
  have hspFlags : h.sp + 1 = s.sp - 1 - 1 := by rw [hsp]; exact BitVec.sub_add_cancel _ _
  have hspLow : h.sp + 1 + 1 = s.sp - 1 := by rw [hspFlags]; exact BitVec.sub_add_cancel _ _
  have hspHigh : h.sp + 1 + 1 + 1 = s.sp := by rw [hspLow]; exact BitVec.sub_add_cancel _ _
  have hpulled : Flags.ofByte (h.peek (stackAddr (h.sp + 1))) = s.flags := by
    rw [hspFlags, hstack]
    exact (congrArg Flags.ofByte hflags).trans (s.flags.ofByte_toByte brk)
  refine ⟨_, (exec_rti_eq_next h _).2 ((h.returnFromException_eq_ok _).2 ⟨haccess _, haccess _, haccess _, rfl⟩),
    ?pc, hspHigh, hpulled, congrArg Flags.i hpulled, rfl⟩
  case pc =>
    have hpeekLow : h.peek (stackAddr (h.sp + 1 + 1)) = loByte ret := by rw [hspLow]; exact (hstack _).trans hlow
    have hpeekHigh : h.peek (stackAddr (h.sp + 1 + 1 + 1)) = hiByte ret := by rw [hspHigh]; exact (hstack _).trans hhigh
    exact (congrArg₂ wordOf hpeekHigh hpeekLow).trans (wordOf_hiByte_loByte ret)
end

section
/-! SUPPORT. How instructions end: the `Ipoll` and the cycles that each operation a meaning is made of leaves, one lemma for each
shape of instruction, and `exec_ends`, which collects them over all instructions; and the settling of the statements about
`Ipoll`, cycles and completion. -/

namespace Sys2Proof.Machine

/-! ### The end of a computation -/

/-- `t` has the value `p` in `Ipoll`, and `n` more cycles than `s`, or any number where `n` is `none`. -/
structure State.Ends (s t : State) (p : Bool) (n : Option Nat) : Prop where
  ipoll : t.ipoll = p
  cycles : ∀ k ∈ n, t.cycles = s.cycles + k

section
variable {s t u : State} {put : State → Byte → State} {o : Operand} {m : AddrMode} {c : Cycles}

theorem State.ends_endAt {target : Addr} {cyc : Nat} (hu : u.cycles = s.cycles) :
    s.Ends (u.endAt target cyc) (u.endAt target cyc).flags.i (some cyc) where
  ipoll := rfl
  cycles k hk := by
    obtain rfl := Option.some.inj hk
    exact congrArg (· + cyc) hu

theorem State.ends_advance {len cyc : Nat} (hu : u.cycles = s.cycles) :
    s.Ends (u.advance len cyc) (u.advance len cyc).flags.i (some cyc) :=
  State.ends_endAt hu

theorem State.ends_advanceLate {iOld : Bool} {len cyc : Nat} (hu : u.cycles = s.cycles) :
    s.Ends (u.advanceLate iOld len cyc) iOld (some cyc) where
  ipoll := rfl
  cycles := (State.ends_advance (len := len) hu).cycles

/-! ### The shapes of instructions -/

theorem loadInto_ends (hput : ∀ v, (put s v).cycles = s.cycles) (h : loadInto put o c s = .next t) :
    s.Ends t t.flags.i (some (s.cycleCount o c)) := by
  obtain ⟨v, -, rfl⟩ := (loadInto_eq_next put o c s t).1 h
  exact State.ends_advance (hput v)

theorem storeAt_ends {v : Byte} (h : storeAt v m c s = .next t) :
    s.Ends t t.flags.i (some (s.cycleCount (.memory m) c)) := by
  obtain ⟨ea, -, -, rfl⟩ := (storeAt_eq_next v m c s t).1 h
  exact State.ends_advance rfl

theorem accumulate_ends {f : Byte → Byte → Flags → Byte × Flags} (h : accumulate f o c s = .next t) :
    s.Ends t t.flags.i (some (s.cycleCount o c)) := by
  obtain ⟨v, -, rfl⟩ := (accumulate_eq_next f o c s t).1 h
  exact State.ends_advance rfl

theorem accumulateBinary_ends {mn : Mnemonic} {f : Byte → Byte → Flags → Byte × Flags}
    (h : accumulateBinary mn f o c s = .next t) : s.Ends t t.flags.i (some (s.cycleCount o c)) := by
  obtain ⟨v, -, -, rfl⟩ := (accumulateBinary_eq_next mn f o c s t).1 h
  exact State.ends_advance rfl

theorem modifyMemory_ends {f : Byte → Flags → Byte × Flags} (h : modifyMemory f m c s = .next t) :
    s.Ends t t.flags.i (some (s.cycleCount (.memory m) c)) := by
  obtain ⟨ea, -, -, rfl⟩ := (modifyMemory_eq_next f m c s t).1 h
  exact State.ends_advance rfl

theorem modifyRegister_ends {v : Byte} {f : Byte → Flags → Byte × Flags} (hput : ∀ v, (put s v).cycles = s.cycles)
    (h : modifyRegister put v f s = .next t) : s.Ends t t.flags.i (some 2) := by
  obtain rfl := (modifyRegister_eq_next put v f s t).1 h
  exact State.ends_advance (hput _)

theorem compareWith_ends {reg : Byte} (h : compareWith reg o c s = .next t) :
    s.Ends t t.flags.i (some (s.cycleCount o c)) := by
  obtain ⟨v, -, rfl⟩ := (compareWith_eq_next reg o c s t).1 h
  exact State.ends_advance rfl

theorem bitTest_ends (h : bitTest o c s = .next t) : s.Ends t t.flags.i (some (s.cycleCount o c)) := by
  obtain ⟨v, -, rfl⟩ := (bitTest_eq_next o c s t).1 h
  exact State.ends_advance rfl

theorem transferInto_ends {v : Byte} (hput : ∀ v, (put s v).cycles = s.cycles) (h : transferInto put v s = .next t) :
    s.Ends t t.flags.i (some 2) := by
  obtain rfl := (transferInto_eq_next put v s t).1 h
  exact State.ends_advance (hput v)

theorem writeFlags_ends {g : Flags} (h : writeFlags g s = .next t) : s.Ends t t.flags.i (some 2) := by
  obtain rfl := (writeFlags_eq_next g s t).1 h
  exact State.ends_advance rfl

theorem branchIf_ends {cond : Bool} {off : Byte} (h : branchIf cond off s = .next t) : s.Ends t t.flags.i none := by
  obtain ⟨-, rfl⟩ | ⟨-, rfl⟩ := (branchIf_eq_next cond off s t).1 h <;> exact ⟨rfl, nofun⟩

/-! ### The instructions with a meaning of their own -/

theorem execJmpInd_ends {ptr : Addr} (h : exec (.jmpInd ptr) s = .next t) : s.Ends t t.flags.i (some 5) := by
  obtain ⟨-, -, rfl⟩ := (exec_jmpInd_eq_next ptr s t).1 h
  exact State.ends_endAt rfl

theorem execJsr_ends {addr : Addr} (h : exec (.jsr addr) s = .next t) : s.Ends t t.flags.i (some 6) := by
  obtain ⟨-, -, rfl⟩ := (exec_jsr_eq_next addr s t).1 h
  exact State.ends_endAt rfl

theorem execRts_ends (h : exec .rts s = .next t) : s.Ends t t.flags.i (some 6) := by
  obtain ⟨-, -, rfl⟩ := (exec_rts_eq_next s t).1 h
  exact State.ends_endAt rfl

/-- PHA and PHP: the push of a byte, and the end of the instruction. -/
theorem push_advance_ends {v : Byte} (h : outcome (s.push v >>= fun u => pure (u.advance 1 3)) = .next t) :
    s.Ends t t.flags.i (some 3) := by
  obtain ⟨u, hpush, rfl⟩ := (outcome_bind_pure_eq_next _ _ t).1 h
  obtain ⟨-, rfl⟩ := (State.push_eq_ok s u v).1 hpush
  exact State.ends_advance rfl

theorem execPla_ends (h : execPla s = .next t) : s.Ends t t.flags.i (some 4) := by
  obtain ⟨⟨v, u⟩, hpull, hend⟩ := exists_of_outcome_bind_eq_next h
  obtain rfl := Except.ok.inj hend
  obtain ⟨-, -, rfl⟩ := (State.pull_eq_ok s u v).1 hpull
  exact State.ends_advance rfl

theorem execPlp_ends (h : execPlp s = .next t) : s.Ends t s.flags.i (some 4) := by
  obtain ⟨⟨v, u⟩, hpull, hend⟩ := exists_of_outcome_bind_eq_next h
  obtain rfl := Except.ok.inj hend
  obtain ⟨-, -, rfl⟩ := (State.pull_eq_ok s u v).1 hpull
  exact State.ends_advanceLate rfl

/-- An exception masks IRQ at once (R185, R190). -/
theorem State.takeException_masks {ret vector : Addr} {brk : Bool} (h : s.takeException ret brk vector = .ok t) :
    t.ipoll = true ∧ t.flags.i = true := by
  obtain ⟨-, -, -, -, -, rfl⟩ := (State.takeException_eq_ok s t ret brk vector).1 h
  exact ⟨rfl, rfl⟩

theorem State.takeException_ends {ret vector : Addr} {brk : Bool} (h : s.takeException ret brk vector = .ok t) :
    s.Ends t t.flags.i (some 7) := by
  obtain ⟨-, -, -, -, -, rfl⟩ := (State.takeException_eq_ok s t ret brk vector).1 h
  exact ⟨rfl, fun _ hk => Option.some.inj hk ▸ rfl⟩

theorem State.returnFromException_ends (h : s.returnFromException = .ok t) : s.Ends t t.flags.i (some 6) := by
  obtain ⟨-, -, -, rfl⟩ := (State.returnFromException_eq_ok s t).1 h
  exact ⟨rfl, fun _ hk => Option.some.inj hk ▸ rfl⟩

end

/-! ### All instructions -/

/-- The I that `Ipoll` takes at the end of an instruction that leads from `s` to `t` (R190). -/
def State.polledMask (s t : State) : Mnemonic → Bool
  | .cli | .sei | .plp => s.flags.i
  | _ => t.flags.i

/-- The number of cycles the cycle table gives an instruction in a state (70_reset_and_hazards.md R214, R215); none for a
branch. -/
def State.tableCycles (s : State) (i : Instr) : Option Nat :=
  (cycleEntry i).map (s.cycleCount (i.operand.getD .accumulator))

/-- How any instruction ends: `Ipoll` takes the I of R190, and the cycles of the table have passed. -/
theorem exec_ends {i : Instr} {s t : State} (h : exec i s = .next t) :
    s.Ends t (s.polledMask t i.mnemonic) (s.tableCycles i) := by
  unfold exec at h
  cases i with
  | ldaImm | ldaZp | ldaZpX | ldaAbs | ldaAbsX | ldaAbsY | ldaIndX | ldaIndY | ldxImm | ldxZp | ldxZpY | ldxAbs | ldxAbsY
  | ldyImm | ldyZp | ldyZpX | ldyAbs | ldyAbsX => exact (loadInto_ends (fun _ => rfl) h :)
  | staZp | staZpX | staAbs | staAbsX | staAbsY | staIndX | staIndY | stxZp | stxZpY | stxAbs | styZp | styZpX | styAbs =>
    exact (storeAt_ends h :)
  | adcImm | adcZp | adcZpX | adcAbs | adcAbsX | adcAbsY | adcIndX | adcIndY | sbcImm | sbcZp | sbcZpX | sbcAbs | sbcAbsX
  | sbcAbsY | sbcIndX | sbcIndY => exact (accumulateBinary_ends h :)
  | andImm | andZp | andZpX | andAbs | andAbsX | andAbsY | andIndX | andIndY | oraImm | oraZp | oraZpX | oraAbs | oraAbsX
  | oraAbsY | oraIndX | oraIndY | eorImm | eorZp | eorZpX | eorAbs | eorAbsX | eorAbsY | eorIndX | eorIndY =>
    exact (accumulate_ends h :)
  | incZp | incZpX | incAbs | incAbsX | decZp | decZpX | decAbs | decAbsX | aslZp | aslZpX | aslAbs | aslAbsX | lsrZp
  | lsrZpX | lsrAbs | lsrAbsX | rolZp | rolZpX | rolAbs | rolAbsX | rorZp | rorZpX | rorAbs | rorAbsX =>
    exact (modifyMemory_ends h :)
  | inx | dex | iny | dey | aslAcc | lsrAcc | rolAcc | rorAcc => exact (modifyRegister_ends (fun _ => rfl) h :)
  | cmpImm | cmpZp | cmpZpX | cmpAbs | cmpAbsX | cmpAbsY | cmpIndX | cmpIndY | cpxImm | cpxZp | cpxAbs | cpyImm | cpyZp
  | cpyAbs => exact (compareWith_ends h :)
  | bitZp | bitAbs => exact (bitTest_ends h :)
  | bcc | bcs | beq | bmi | bne | bpl | bvc | bvs => exact branchIf_ends h
  | tsx | tax | tay | txa | tya => exact (transferInto_ends (fun _ => rfl) h :)
  | clc | sec | clv | cld | sed => exact (writeFlags_ends h :)
  | txs | nop =>
    obtain rfl := Host.Outcome.next.inj h
    exact State.ends_advance rfl
  | cli | sei =>
    obtain rfl := Host.Outcome.next.inj h
    exact State.ends_advanceLate rfl
  | jmpAbs addr =>
    obtain rfl := Host.Outcome.next.inj h
    exact State.ends_endAt rfl
  | jmpInd => exact execJmpInd_ends h
  | jsr => exact execJsr_ends h
  | rts => exact execRts_ends h
  | pha | php => exact push_advance_ends h
  | pla => exact execPla_ends h
  | plp => exact execPlp_ends h
  | brk => exact State.takeException_ends ((outcome_eq_next _ _).1 h)
  | rti => exact State.returnFromException_ends ((outcome_eq_next _ _).1 h)

theorem State.polledMask_of_not_late (s t : State) {mn : Mnemonic} (hcli : mn ≠ .cli) (hsei : mn ≠ .sei)
    (hplp : mn ≠ .plp) : s.polledMask t mn = t.flags.i := by
  cases mn with
  | cli | sei | plp => contradiction
  | _ => rfl

/-- BRK masks IRQ: its mnemonic has one form, the exception (46_system.md R156). -/
theorem exec_brk_masks {i : Instr} {s t : State} (h : exec i s = .next t) (hmn : i.mnemonic = .brk) : t.ipoll = true := by
  cases i with
  | brk => exact (State.takeException_masks ((exec_brk_eq_next s t).1 h)).1
  | _ => cases hmn

/-- An event masks IRQ at once (R185, R190, 70_reset_and_hazards.md R210). -/
theorem State.takeEvent_masks {s t : State} {e : Event} (h : s.takeEvent e = .ok t) : t.ipoll = true ∧ t.flags.i = true := by
  cases e with
  | reset r =>
    obtain ⟨-, -, rfl⟩ := (s.resetSequence_eq_ok t r).1 h
    exact ⟨rfl, s.resetRegisters_flags_i r⟩
  | nmi =>
    obtain ⟨u, hentry, rfl⟩ := (s.nmiEntry_eq_ok t).1 h
    exact (State.takeException_masks hentry :)
  | irq => exact State.takeException_masks h

/-- Only a branch has no entry in the cycle table. -/
theorem cycleEntry_ne_none {i : Instr} (h : branchTest i.mnemonic = none) : cycleEntry i ≠ none := by
  cases i with
  | bcc | bcs | beq | bmi | bne | bpl | bvc | bvs => cases h
  | _ => nofun

/-! ### Completion -/

theorem State.not_refusedAt {s : State} {addr : Addr} (h : s.accessible addr = true) (r : Refusal) :
    ¬ s.RefusedAt addr r := by
  rintro (⟨-, hclass⟩ | ⟨-, hclass⟩) <;> simp [State.accessible, hclass] at h

end Sys2Proof.Machine

open Sys2Proof Sys2Proof.Machine

/-- Settles O19: there is no fault, and neither of the two causes of a refusal is there. -/
theorem everyInstructionCompletes : Obligations.EveryInstructionCompletes := by
  intro s i haccess hbinary
  cases hexec : exec i s with
  | next t => exact ⟨t, rfl⟩
  | fault f => exact nomatch f
  | refused r =>
    obtain ⟨addr, hrefused⟩ | ⟨-, -, hd, hrefuse⟩ := exec_refused hexec
    · exact absurd hrefused (State.not_refusedAt (haccess addr) r)
    · exact absurd ((hbinary hd).symm.trans hrefuse) nofun

/-- Settles O53: the `Ipoll` part of `exec_ends`, and what an exception and a reset set. -/
theorem ipollAfterEveryStep : Obligations.IpollAfterEveryStep := by
  refine ⟨fun i s t hexec => ⟨?late, exec_brk_masks hexec, fun hcli hsei hplp => ?other⟩, fun _ _ _ => State.takeEvent_masks⟩
  case late =>
    rintro (hmn | hmn | hmn) <;> simpa [hmn, State.polledMask] using (exec_ends hexec).ipoll
  case other => exact (exec_ends hexec).ipoll.trans (s.polledMask_of_not_late t hcli hsei hplp)

/-- Settles O58: the cycles part of `exec_ends`, with the entry read off the table. -/
theorem cycleCounts : Obligations.CycleCounts := by
  refine ⟨fun _ => cycleEntry_ne_none, fun i s t n hexec => ⟨fun hentry => ?fixed, fun m ho hentry => ?range⟩⟩
  case fixed => exact (exec_ends hexec).cycles n (by simp [State.tableCycles, hentry, State.cycleCount])
  case range =>
    have hcycles := (exec_ends hexec).cycles (n + (s.crossesPage m).toNat)
      (by simp [State.tableCycles, hentry, ho, State.cycleCount])
    cases hcross : s.crossesPage m <;> simpa [hcross] using hcycles
end

section
/-! SUPPORT. That the cycle counter is not observable (70_reset_and_hazards.md R218): computations that agree up to the counter, one
rule for each operation a meaning is made of, and `exec_agree`, which collects them over all instructions; and the settling of
the statement about it. -/

namespace Sys2Proof.Machine

/-! ### Agreement -/

/-- `u` differs from `s` at most in the cycle counter. -/
def State.SameButCycles (s u : State) : Prop := ∃ n, u = { s with cycles := n }

/-- A pulled value with the state behind it: the same value, and states that differ at most in the cycle counter. -/
def SamePulled {α : Type} (p q : α × State) : Prop := p.1 = q.1 ∧ p.2.SameButCycles q.2

/-- Two computations are refused for the same reason, or give results that `R` relates. -/
inductive Access.Agree {α : Type} (R : α → α → Prop) : Access α → Access α → Prop
  | ok {a b : α} (h : R a b) : Agree R (.ok a) (.ok b)
  | error (r : Refusal) : Agree R (.error r) (.error r)

/-- Two answers are the same refusal, or next states that differ at most in the cycle counter. -/
inductive AgreeButCycles : Result → Result → Prop
  | next {t u : State} (h : t.SameButCycles u) : AgreeButCycles (.next t) (.next u)
  | refused (r : Refusal) : AgreeButCycles (.refused r) (.refused r)

section
variable {α β : Type} {R : α → α → Prop} {Q : β → β → Prop}

theorem Access.Agree.bind {x y : Access α} {f g : α → Access β} (h : Access.Agree R x y)
    (hfg : ∀ a b, R a b → Access.Agree Q (f a) (g b)) : Access.Agree Q (x >>= f) (y >>= g) := by
  cases h with
  | ok h => exact hfg _ _ h
  | error r => exact .error r

/-- Both computations begin with the same part, one that does not depend on the counter. -/
theorem Access.Agree.bind_same (x : Access α) {f g : α → Access β} (hfg : ∀ a, Access.Agree Q (f a) (g a)) :
    Access.Agree Q (x >>= f) (x >>= g) := by
  cases x with
  | ok a => exact hfg a
  | error r => exact .error r

theorem Access.Agree.outcome {x y : Access State} (h : Access.Agree State.SameButCycles x y) :
    AgreeButCycles (outcome x) (outcome y) := by
  cases h with
  | ok h => exact .next h
  | error r => exact .refused r

end

/-! ### Operations -/

namespace State.SameButCycles

variable {s u : State} (h : s.SameButCycles u)
include h

theorem flags : u.flags = s.flags := by
  obtain ⟨n, rfl⟩ := h
  rfl

theorem read (addr : Addr) : u.read addr = s.read addr := by
  obtain ⟨n, rfl⟩ := h
  rfl

theorem effectiveAddress (m : AddrMode) : u.effectiveAddress m = s.effectiveAddress m := by
  obtain ⟨n, rfl⟩ := h
  cases m <;> rfl

theorem operandByte (o : Operand) : u.operandByte o = s.operandByte o := by
  obtain ⟨n, rfl⟩ := h
  cases o with
  | accumulator | immediate => rfl
  | memory m => cases m <;> rfl

/-- A write of a register or of PC is made alike in both states. -/
theorem setA (v : Byte) : (s.setA v).SameButCycles (u.setA v) := by
  obtain ⟨n, rfl⟩ := h
  exact ⟨n, rfl⟩

theorem setX (v : Byte) : (s.setX v).SameButCycles (u.setX v) := by
  obtain ⟨n, rfl⟩ := h
  exact ⟨n, rfl⟩

theorem setY (v : Byte) : (s.setY v).SameButCycles (u.setY v) := by
  obtain ⟨n, rfl⟩ := h
  exact ⟨n, rfl⟩

theorem setSp (v : Byte) : (s.setSp v).SameButCycles (u.setSp v) := by
  obtain ⟨n, rfl⟩ := h
  exact ⟨n, rfl⟩

theorem setFlags (f : Flags) : (s.setFlags f).SameButCycles (u.setFlags f) := by
  obtain ⟨n, rfl⟩ := h
  exact ⟨n, rfl⟩

theorem setIpoll (p : Bool) : (s.setIpoll p).SameButCycles (u.setIpoll p) := by
  obtain ⟨n, rfl⟩ := h
  exact ⟨n, rfl⟩

theorem poke (addr : Addr) (v : Byte) : (s.poke addr v).SameButCycles (u.poke addr v) := by
  obtain ⟨n, rfl⟩ := h
  exact ⟨n, rfl⟩

/-- The number of cycles counted, `k` or `l`, is not compared. -/
theorem endAt (target : Addr) (k l : Nat) : (s.endAt target k).SameButCycles (u.endAt target l) := by
  obtain ⟨n, rfl⟩ := h
  exact ⟨_, rfl⟩

theorem advance (len k l : Nat) : (s.advance len k).SameButCycles (u.advance len l) := by
  obtain ⟨n, rfl⟩ := h
  exact ⟨_, rfl⟩

theorem advanceLate (p : Bool) (len k l : Nat) : (s.advanceLate p len k).SameButCycles (u.advanceLate p len l) :=
  (h.advance len k l).setIpoll p

theorem write (addr : Addr) (v : Byte) : Access.Agree State.SameButCycles (s.write addr v) (u.write addr v) := by
  have hcheck : u.checkAddress addr = s.checkAddress addr := by
    obtain ⟨n, rfl⟩ := h
    rfl
  unfold State.write
  rw [hcheck]
  exact .bind_same _ fun _ => .ok (h.poke addr v)

theorem push (v : Byte) : Access.Agree State.SameButCycles (s.push v) (u.push v) := by
  obtain ⟨n, rfl⟩ := h
  exact (write ⟨n, rfl⟩ (stackAddr s.sp) v).bind fun _ _ ht => .ok (ht.setSp (s.sp - 1))

theorem pushWord (w : Addr) : Access.Agree State.SameButCycles (s.pushWord w) (u.pushWord w) :=
  (h.push _).bind fun _ _ ht => ht.push _

theorem pull : Access.Agree SamePulled s.pull u.pull := by
  obtain ⟨n, rfl⟩ := h
  exact .bind_same ((s.setSp (s.sp + 1)).read _) fun _ => .ok ⟨rfl, n, rfl⟩

theorem pullWord : Access.Agree SamePulled s.pullWord u.pullWord := by
  refine h.pull.bind ?_
  rintro ⟨l, t⟩ ⟨_, _⟩ ⟨rfl, ht⟩
  refine ht.pull.bind ?_
  rintro ⟨b, v⟩ ⟨_, _⟩ ⟨rfl, hv⟩
  exact .ok ⟨rfl, hv⟩

theorem takeException (ret : Addr) (brk : Bool) (vector : Addr) :
    Access.Agree State.SameButCycles (s.takeException ret brk vector) (u.takeException ret brk vector) := by
  unfold State.takeException
  rw [h.flags]
  refine (h.pushWord ret).bind fun t v ht => (ht.push _).bind ?_
  rintro w _ ⟨k, rfl⟩
  exact .bind_same (State.readVector _ vector) fun _ => .ok ⟨_, rfl⟩

theorem returnFromException : Access.Agree State.SameButCycles s.returnFromException u.returnFromException := by
  refine h.pull.bind ?_
  rintro ⟨p, t⟩ ⟨_, _⟩ ⟨rfl, ht⟩
  refine (ht.setFlags _).pullWord.bind ?_
  rintro ⟨target, v⟩ ⟨_, _⟩ ⟨rfl, hv⟩
  exact .ok (hv.endAt target 6 6)

end State.SameButCycles

/-! ### The shapes of instructions -/

section
variable {s u : State} {put : State → Byte → State} {o : Operand} {m : AddrMode} {c : Cycles} (h : s.SameButCycles u)
include h

/-- A shape that reads its operand and cannot stop behind the read. -/
theorem operandByte_agree {f g : Byte → State} (hfg : ∀ v, (f v).SameButCycles (g v)) :
    AgreeButCycles (outcome (s.operandByte o >>= fun v => pure (f v)))
      (outcome (u.operandByte o >>= fun v => pure (g v))) := by
  rw [h.operandByte o]
  exact (Access.Agree.bind_same _ fun v => .ok (hfg v)).outcome

theorem loadInto_agree (hput : ∀ v, (put s v).SameButCycles (put u v)) :
    AgreeButCycles (loadInto put o c s) (loadInto put o c u) := by
  unfold loadInto
  rw [h.flags]
  exact operandByte_agree h fun v => ((hput v).setFlags _).advance _ _ _

theorem accumulate_agree {f : Byte → Byte → Flags → Byte × Flags} :
    AgreeButCycles (accumulate f o c s) (accumulate f o c u) := by
  refine operandByte_agree h fun v => ?_
  obtain ⟨n, rfl⟩ := h
  exact ⟨_, rfl⟩

theorem accumulateBinary_agree {mn : Mnemonic} {f : Byte → Byte → Flags → Byte × Flags} :
    AgreeButCycles (accumulateBinary mn f o c s) (accumulateBinary mn f o c u) := by
  unfold accumulateBinary
  rw [h.operandByte o]
  obtain ⟨n, rfl⟩ := h
  exact (Access.Agree.bind_same _ fun _ => .bind_same (s.checkDecimal mn) fun _ => .ok ⟨_, rfl⟩).outcome

theorem compareWith_agree {reg : Byte} : AgreeButCycles (compareWith reg o c s) (compareWith reg o c u) := by
  unfold compareWith
  rw [h.flags]
  exact operandByte_agree h fun v => (h.setFlags _).advance _ _ _

theorem bitTest_agree : AgreeButCycles (bitTest o c s) (bitTest o c u) := by
  refine operandByte_agree h fun v => ?_
  obtain ⟨n, rfl⟩ := h
  exact ⟨_, rfl⟩

theorem storeAt_agree {v : Byte} : AgreeButCycles (storeAt v m c s) (storeAt v m c u) := by
  unfold storeAt
  rw [h.effectiveAddress m]
  exact (Access.Agree.bind_same _ fun ea => (h.write ea v).bind fun _ _ ht => .ok (ht.advance _ _ _)).outcome

theorem modifyMemory_agree {f : Byte → Flags → Byte × Flags} :
    AgreeButCycles (modifyMemory f m c s) (modifyMemory f m c u) := by
  unfold modifyMemory
  rw [h.effectiveAddress m, h.flags]
  refine (Access.Agree.bind_same _ fun ea => ?_).outcome
  rw [h.read ea]
  exact .bind_same _ fun v => (h.write ea _).bind fun _ _ ht => .ok ((ht.setFlags _).advance _ _ _)

theorem modifyRegister_agree {v : Byte} {f : Byte → Flags → Byte × Flags}
    (hput : ∀ v, (put s v).SameButCycles (put u v)) :
    AgreeButCycles (modifyRegister put v f s) (modifyRegister put v f u) := by
  unfold modifyRegister
  rw [h.flags]
  exact .next (((hput _).setFlags _).advance 1 2 2)

theorem transferInto_agree {v : Byte} (hput : ∀ v, (put s v).SameButCycles (put u v)) :
    AgreeButCycles (transferInto put v s) (transferInto put v u) := by
  unfold transferInto
  rw [h.flags]
  exact .next (((hput v).setFlags _).advance 1 2 2)

theorem writeFlags_agree (f : Flags) : AgreeButCycles (writeFlags f s) (writeFlags f u) :=
  .next ((h.setFlags f).advance 1 2 2)

theorem branchIf_agree (cond : Bool) (off : Byte) : AgreeButCycles (branchIf cond off s) (branchIf cond off u) := by
  have htarget : u.branchTarget off = s.branchTarget off := by
    obtain ⟨n, rfl⟩ := h
    rfl
  cases cond with
  | true =>
    unfold branchIf
    rw [htarget]
    exact .next (h.endAt _ _ _)
  | false => exact .next (h.advance 2 2 2)

/-! ### The instructions with a meaning of their own -/

theorem execJmpInd_agree (ptr : Addr) : AgreeButCycles (execJmpInd ptr s) (execJmpInd ptr u) := by
  unfold execJmpInd
  rw [h.effectiveAddress]
  exact (Access.Agree.bind_same _ fun target => .ok (h.endAt target 5 5)).outcome

/-- PHA and PHP: the push of a byte, and the end of the instruction. -/
theorem push_advance_agree (v : Byte) :
    AgreeButCycles (outcome (s.push v >>= fun t => pure (t.advance 1 3)))
      (outcome (u.push v >>= fun t => pure (t.advance 1 3))) :=
  ((h.push v).bind fun _ _ ht => .ok (ht.advance 1 3 3)).outcome

theorem pushWord_endAt_agree (w target : Addr) :
    AgreeButCycles (outcome (s.pushWord w >>= fun t => pure (t.endAt target 6)))
      (outcome (u.pushWord w >>= fun t => pure (t.endAt target 6))) :=
  ((h.pushWord w).bind fun _ _ ht => .ok (ht.endAt target 6 6)).outcome

theorem execPla_agree : AgreeButCycles (execPla s) (execPla u) := by
  unfold execPla
  rw [h.flags]
  refine (h.pull.bind ?_).outcome
  rintro ⟨v, t⟩ ⟨_, _⟩ ⟨rfl, ht⟩
  exact .ok (((ht.setA v).setFlags _).advance 1 4 4)

theorem execPlp_agree : AgreeButCycles (execPlp s) (execPlp u) := by
  unfold execPlp
  rw [h.flags]
  refine (h.pull.bind ?_).outcome
  rintro ⟨v, t⟩ ⟨_, _⟩ ⟨rfl, ht⟩
  exact .ok ((ht.setFlags _).advanceLate _ 1 4 4)

theorem execRts_agree : AgreeButCycles (execRts s) (execRts u) := by
  refine (h.pullWord.bind ?_).outcome
  rintro ⟨w, t⟩ ⟨_, _⟩ ⟨rfl, ht⟩
  exact .ok (ht.endAt _ 6 6)

end

/-! ### All instructions -/

/-- No instruction depends on the cycle counter. -/
theorem exec_agree (i : Instr) {s u : State} (h : s.SameButCycles u) : AgreeButCycles (exec i s) (exec i u) := by
  have ⟨n, hu⟩ := h
  subst hu
  unfold exec
  cases i with
  | ldaImm | ldaZp | ldaZpX | ldaAbs | ldaAbsX | ldaAbsY | ldaIndX | ldaIndY => exact loadInto_agree h h.setA
  | ldxImm | ldxZp | ldxZpY | ldxAbs | ldxAbsY => exact loadInto_agree h h.setX
  | ldyImm | ldyZp | ldyZpX | ldyAbs | ldyAbsX => exact loadInto_agree h h.setY
  | staZp | staZpX | staAbs | staAbsX | staAbsY | staIndX | staIndY | stxZp | stxZpY | stxAbs | styZp | styZpX | styAbs =>
    exact storeAt_agree h
  | adcImm | adcZp | adcZpX | adcAbs | adcAbsX | adcAbsY | adcIndX | adcIndY | sbcImm | sbcZp | sbcZpX | sbcAbs | sbcAbsX
  | sbcAbsY | sbcIndX | sbcIndY => exact accumulateBinary_agree h
  | andImm | andZp | andZpX | andAbs | andAbsX | andAbsY | andIndX | andIndY | oraImm | oraZp | oraZpX | oraAbs | oraAbsX
  | oraAbsY | oraIndX | oraIndY | eorImm | eorZp | eorZpX | eorAbs | eorAbsX | eorAbsY | eorIndX | eorIndY =>
    exact accumulate_agree h
  | incZp | incZpX | incAbs | incAbsX | decZp | decZpX | decAbs | decAbsX | aslZp | aslZpX | aslAbs | aslAbsX | lsrZp
  | lsrZpX | lsrAbs | lsrAbsX | rolZp | rolZpX | rolAbs | rolAbsX | rorZp | rorZpX | rorAbs | rorAbsX =>
    exact modifyMemory_agree h
  | inx | dex => exact modifyRegister_agree h h.setX
  | iny | dey => exact modifyRegister_agree h h.setY
  | aslAcc | lsrAcc | rolAcc | rorAcc => exact modifyRegister_agree h h.setA
  | cmpImm | cmpZp | cmpZpX | cmpAbs | cmpAbsX | cmpAbsY | cmpIndX | cmpIndY | cpxImm | cpxZp | cpxAbs | cpyImm | cpyZp
  | cpyAbs => exact compareWith_agree h
  | bitZp | bitAbs => exact bitTest_agree h
  | bcc | bcs | beq | bmi | bne | bpl | bvc | bvs => exact branchIf_agree h _ _
  | tsx | tax => exact transferInto_agree h h.setX
  | tay => exact transferInto_agree h h.setY
  | txa | tya => exact transferInto_agree h h.setA
  | txs => exact .next ((h.setSp s.x).advance 1 2 2)
  | clc | sec | clv | cld | sed => exact writeFlags_agree h _
  | cli | sei => exact .next ((h.setFlags _).advanceLate s.flags.i 1 2 2)
  | nop => exact .next (h.advance 1 2 2)
  | jmpAbs addr => exact .next (h.endAt addr 3 3)
  | jmpInd ptr => exact execJmpInd_agree h ptr
  | jsr addr => exact pushWord_endAt_agree h (s.pc + 2) addr
  | rts => exact execRts_agree h
  | pha | php => exact push_advance_agree h _
  | pla => exact execPla_agree h
  | plp => exact execPlp_agree h
  | brk => exact (h.takeException (s.pc + 2) true irqVector).outcome
  | rti => exact h.returnFromException.outcome

/-! ### The step -/

namespace State.SameButCycles

variable {s u : State} (h : s.SameButCycles u)
include h

theorem sampled : s.sampled.SameButCycles u.sampled := by
  obtain ⟨n, rfl⟩ := h
  exact ⟨n, by simp only [State.sampled_eq]; rfl⟩

theorem event : u.sampled.event u.boundary = s.sampled.event s.boundary := by
  have hboundary : u.boundary = s.boundary := by
    obtain ⟨n, rfl⟩ := h
    rfl
  obtain ⟨n, hu⟩ := h.sampled
  rw [hboundary, hu]
  rfl

theorem readBytes (addr : Addr) (k : Nat) : u.readBytes addr k = s.readBytes addr k := by
  induction k generalizing addr with
  | zero => rfl
  | succ k ih => simp only [State.readBytes, ih, h.read]

theorem fetch : u.fetch = s.fetch := by
  have hpc : u.pc = s.pc := by
    obtain ⟨n, rfl⟩ := h
    rfl
  have hcfg : u.cfg = s.cfg := by
    obtain ⟨n, rfl⟩ := h
    rfl
  simp only [State.fetch, h.read, h.readBytes, hpc, hcfg]

/-- No event's taking depends on the cycle counter. -/
theorem takeEvent (e : Event) : Access.Agree State.SameButCycles (s.takeEvent e) (u.takeEvent e) := by
  obtain ⟨n, rfl⟩ := h
  cases e with
  | reset r =>
    cases r with
    | keep | draw => exact .bind_same (s.readVector resetVector) fun _ => .ok ⟨_, rfl⟩
  | nmi =>
    refine (State.SameButCycles.takeException ⟨n, rfl⟩ s.pc false nmiVector).bind ?_
    rintro t _ ⟨k, rfl⟩
    exact .ok ⟨k, rfl⟩
  | irq => exact State.SameButCycles.takeException ⟨n, rfl⟩ s.pc false irqVector

theorem runFetched_agree (x : Access Instr) : AgreeButCycles (runFetched s x) (runFetched u x) := by
  cases x with
  | ok i => exact exec_agree i h
  | error r => exact .refused r

/-- No step depends on the cycle counter. -/
theorem step_agree : AgreeButCycles (step s) (step u) := by
  cases hevent : s.sampled.event s.boundary with
  | some e =>
    rw [step_eq_takeEvent hevent, step_eq_takeEvent (h.event.trans hevent)]
    exact (h.sampled.takeEvent e).outcome
  | none =>
    rw [step_eq_runFetched hevent, step_eq_runFetched (h.event.trans hevent), h.sampled.fetch]
    exact h.sampled.runFetched_agree s.sampled.fetch

end State.SameButCycles

/-! ### Agreement, read from the left -/

theorem AgreeButCycles.eq_next {p q : Result} {t : State} (h : AgreeButCycles p q) (hp : p = .next t) :
    ∃ k, q = .next { t with cycles := k } := by
  cases h with
  | next h =>
    obtain rfl := Host.Outcome.next.inj hp
    exact h.imp fun _ => congrArg _
  | refused r => cases hp

theorem AgreeButCycles.eq_refused {p q : Result} {r : Refusal} (h : AgreeButCycles p q) (hp : p = .refused r) :
    q = .refused r := by
  cases h with
  | next h => cases hp
  | refused _ => exact hp

end Sys2Proof.Machine

open Sys2Proof Sys2Proof.Machine

/-- Settles O60: the agreement of the two steps, read from the left; there is no fault. -/
theorem cyclesNotObservable : Obligations.CyclesNotObservable := by
  intro s n
  have hagree : AgreeButCycles (step s) (step { s with cycles := n }) := State.SameButCycles.step_agree ⟨n, rfl⟩
  exact ⟨fun _ => hagree.eq_next, nofun, fun _ => hagree.eq_refused⟩
end

section
/-! SUPPORT. Which register a register's new value comes from: in a memory of zeros it is a function of one register and the flags,
and that register is another one for a transfer only; and the settling of the statement about the register transfers of
47_supplement.md. -/

namespace Sys2Proof.Machine

/-! ### Operands in a memory of zeros -/

theorem State.peek_of_mem_nil {s : State} (h : s.mem = []) (addr : Addr) : s.peek addr = Memory.background := by
  rw [State.peek, h]
  rfl

/-- In a memory of zeros an operand byte does not depend on the registers, but in Accumulator mode. -/
theorem exists_operandByte_eq {o : Operand} (ho : o ≠ .accumulator) :
    ∃ w, ∀ (s : State) (v : Byte), s.mem = [] → s.operandByte o = .ok v → v = w := by
  cases o with
  | accumulator => exact absurd rfl ho
  | immediate w => exact ⟨w, fun s v _ hv => (Except.ok.inj hv).symm⟩
  | memory m =>
    refine ⟨Memory.background, fun s v hmem hv => ?_⟩
    obtain ⟨ea, -, -, rfl⟩ := (s.operandByte_memory_eq_ok m v).1 hv
    exact State.peek_of_mem_nil hmem ea

/-! ### Where a register's new value comes from -/

/-- Whenever the instruction completes in a memory of zeros, the new value of `dst` is a function of the old value of `src` and
the flags. -/
def DeterminedBy (i : Instr) (dst src : RegName) : Prop :=
  ∃ F : Byte → Flags → Byte, ∀ s t : State, s.mem = [] → exec i s = .next t → t.reg dst = F (s.reg src) s.flags

section
variable {i : Instr} {dst src : RegName} {put : State → Byte → State} {o : Operand}

/-- A register that the instruction does not write is determined by itself. -/
theorem determinedBy_self_of_not_written (h : dst ∉ registersWritten i) : DeterminedBy i dst dst :=
  ⟨fun v _ => v, fun _ _ _ hexec => (exec_changes hexec).reg dst h⟩

theorem load_determinedBy (hload : loadPut i.mnemonic = some put) (hi : i.operand = some o) (ho : o ≠ .accumulator)
    (hput : ∀ s v, (put s v).reg dst = v) : DeterminedBy i dst dst := by
  obtain ⟨w, hw⟩ := exists_operandByte_eq ho
  refine ⟨fun _ _ => w, fun s t hmem h => ?_⟩
  obtain ⟨c, hexec⟩ := exec_eq_loadInto s hload hi
  obtain ⟨v, hv, rfl⟩ := (loadInto_eq_next put o c s t).1 (hexec.symm.trans h)
  obtain rfl := hw s v hmem hv
  cases dst <;> exact hput s v

theorem binaryOp_determinedBy {f : Byte → Byte → Flags → Byte × Flags} (hop : binaryOp i.mnemonic = some f)
    (hi : i.operand = some o) (ho : o ≠ .accumulator) : DeterminedBy i .a .a := by
  obtain ⟨w, hw⟩ := exists_operandByte_eq ho
  refine ⟨fun a g => (f a w g).1, fun s t hmem h => ?_⟩
  obtain ⟨c, hexec⟩ := exec_eq_accumulateBinary_binaryOp s hop hi
  obtain ⟨v, hv, -, rfl⟩ := (accumulateBinary_eq_next _ f o c s t).1 (hexec.symm.trans h)
  obtain rfl := hw s v hmem hv
  rfl

theorem logicOp_determinedBy {f : Byte → Byte → Flags → Byte × Flags} (hop : logicOp i.mnemonic = some f)
    (hi : i.operand = some o) (ho : o ≠ .accumulator) : DeterminedBy i .a .a := by
  obtain ⟨w, hw⟩ := exists_operandByte_eq ho
  refine ⟨fun a g => (f a w g).1, fun s t hmem h => ?_⟩
  obtain ⟨c, hexec⟩ := exec_eq_accumulate_logicOp s hop hi
  obtain ⟨v, hv, rfl⟩ := (accumulate_eq_next f o c s t).1 (hexec.symm.trans h)
  obtain rfl := hw s v hmem hv
  rfl

theorem modifyRegister_determinedBy {f : Byte → Flags → Byte × Flags}
    (hexec : ∀ s, exec i s = modifyRegister put (s.reg dst) f s) (hput : ∀ s v, (put s v).reg dst = v) :
    DeterminedBy i dst dst := by
  refine ⟨fun v g => (f v g).1, fun s t _ h => ?_⟩
  obtain rfl := (modifyRegister_eq_next put _ f s t).1 ((hexec s).symm.trans h)
  cases dst <;> exact hput s _

theorem transferInto_determinedBy (hexec : ∀ s, exec i s = transferInto put (s.reg src) s)
    (hput : ∀ s v, (put s v).reg dst = v) : DeterminedBy i dst src := by
  refine ⟨fun v _ => v, fun s t _ h => ?_⟩
  obtain rfl := (transferInto_eq_next put _ s t).1 ((hexec s).symm.trans h)
  cases dst <;> exact hput s _

theorem txs_determinedBy : DeterminedBy .txs .sp .x := by
  refine ⟨fun v _ => v, fun s t _ h => ?_⟩
  obtain rfl := Host.Outcome.next.inj h
  rfl

/-- What PLA pulls from a memory of zeros depends on no register. -/
theorem pla_determinedBy : DeterminedBy .pla .a .a := by
  refine ⟨fun _ _ => Memory.background, fun s t hmem h => ?_⟩
  obtain ⟨⟨v, u⟩, hpull, hend⟩ := exists_of_outcome_bind_eq_next h
  obtain rfl := Except.ok.inj hend
  obtain ⟨-, rfl, -⟩ := (State.pull_eq_ok s u v).1 hpull
  exact State.peek_of_mem_nil hmem _

end

/-! ### Where SP comes from -/

/-- A push at the body of an instruction. -/
theorem push_advance_sp {s t : State} {v : Byte} (h : outcome (s.push v >>= fun u => pure (u.advance 1 3)) = .next t) :
    t.sp = s.sp - 1 := by
  obtain ⟨u, hpush, rfl⟩ := (outcome_bind_pure_eq_next _ _ t).1 h
  obtain ⟨-, rfl⟩ := (State.push_eq_ok s u v).1 hpush
  rfl

/-- A pull at the body of an instruction that writes no SP behind it. -/
theorem pull_bind_sp {s t : State} {f : Byte × State → Access State} (hf : ∀ p u, f p = .ok u → u.sp = p.2.sp)
    (h : outcome (s.pull >>= f) = .next t) : t.sp = s.sp + 1 := by
  obtain ⟨⟨v, u⟩, hpull, hend⟩ := exists_of_outcome_bind_eq_next h
  obtain ⟨-, -, rfl⟩ := (State.pull_eq_ok s u v).1 hpull
  exact hf _ t hend

/-- Every instruction that moves SP but TXS moves it by a fixed number (44_stack_flags.md R130, R131). -/
theorem sp_determinedBy {i : Instr} (hsp : RegName.sp ∈ registersWritten i) (hi : i ≠ .txs) : DeterminedBy i .sp .sp := by
  cases i with
  | txs => exact absurd rfl hi
  | pha | php => exact ⟨fun v _ => v - 1, fun _ _ _ h => push_advance_sp h⟩
  | pla | plp =>
    refine ⟨fun v _ => v + 1, fun s t _ h => pull_bind_sp (fun p u hu => ?_) h⟩
    obtain rfl := Except.ok.inj hu
    rfl
  | jsr =>
    refine ⟨fun v _ => v - 1 - 1, fun s t _ h => ?_⟩
    obtain ⟨-, -, rfl⟩ := (exec_jsr_eq_next _ s t).1 h
    rfl
  | rts =>
    refine ⟨fun v _ => v + 1 + 1, fun s t _ h => ?_⟩
    obtain ⟨-, -, rfl⟩ := (exec_rts_eq_next s t).1 h
    rfl
  | brk =>
    refine ⟨fun v _ => v - 1 - 1 - 1, fun s t _ h => ?_⟩
    obtain ⟨-, -, -, -, -, rfl⟩ := (State.takeException_eq_ok s t _ _ _).1 ((exec_brk_eq_next s t).1 h)
    rfl
  | rti =>
    refine ⟨fun v _ => v + 1 + 1 + 1, fun s t _ h => ?_⟩
    obtain ⟨-, -, -, rfl⟩ := (State.returnFromException_eq_ok s t).1 ((exec_rti_eq_next s t).1 h)
    rfl
  | _ => simp [registersWritten, Instr.mnemonic, Instr.operand] at hsp

/-! ### All instructions -/

/-- The register transfers, each with its source and its destination (47_supplement.md R160 to R163, 44_stack_flags.md R136,
R137). -/
def transferList : List (Instr × RegName × RegName) :=
  [(.tax, .a, .x), (.tay, .a, .y), (.txa, .x, .a), (.tya, .y, .a), (.tsx, .sp, .x), (.txs, .x, .sp)]

/-- Every register's new value comes from its own old value, or from another register's by one of the transfers. -/
theorem exists_determinedBy (i : Instr) (dst : RegName) :
    ∃ src, DeterminedBy i dst src ∧ (src = dst ∨ (i, src, dst) ∈ transferList) := by
  by_cases hdst : dst ∈ registersWritten i
  case neg => exact ⟨dst, determinedBy_self_of_not_written hdst, .inl rfl⟩
  cases i with
  | ldaImm | ldaZp | ldaZpX | ldaAbs | ldaAbsX | ldaAbsY | ldaIndX | ldaIndY | ldxImm | ldxZp | ldxZpY | ldxAbs | ldxAbsY
  | ldyImm | ldyZp | ldyZpX | ldyAbs | ldyAbsX =>
    obtain rfl := List.mem_singleton.1 hdst
    exact ⟨_, load_determinedBy rfl rfl nofun fun _ _ => rfl, .inl rfl⟩
  | adcImm | adcZp | adcZpX | adcAbs | adcAbsX | adcAbsY | adcIndX | adcIndY | sbcImm | sbcZp | sbcZpX | sbcAbs | sbcAbsX
  | sbcAbsY | sbcIndX | sbcIndY =>
    obtain rfl := List.mem_singleton.1 hdst
    exact ⟨_, binaryOp_determinedBy rfl rfl nofun, .inl rfl⟩
  | andImm | andZp | andZpX | andAbs | andAbsX | andAbsY | andIndX | andIndY | oraImm | oraZp | oraZpX | oraAbs | oraAbsX
  | oraAbsY | oraIndX | oraIndY | eorImm | eorZp | eorZpX | eorAbs | eorAbsX | eorAbsY | eorIndX | eorIndY =>
    obtain rfl := List.mem_singleton.1 hdst
    exact ⟨_, logicOp_determinedBy rfl rfl nofun, .inl rfl⟩
  | inx | dex | iny | dey | aslAcc | lsrAcc | rolAcc | rorAcc =>
    obtain rfl := List.mem_singleton.1 hdst
    exact ⟨_, modifyRegister_determinedBy (fun _ => rfl) (fun _ _ => rfl), .inl rfl⟩
  | tax | tay =>
    obtain rfl := List.mem_singleton.1 hdst
    exact ⟨.a, transferInto_determinedBy (fun _ => rfl) (fun _ _ => rfl), .inr (by simp [transferList])⟩
  | txa =>
    obtain rfl := List.mem_singleton.1 hdst
    exact ⟨.x, transferInto_determinedBy (fun _ => rfl) (fun _ _ => rfl), .inr (by simp [transferList])⟩
  | tya =>
    obtain rfl := List.mem_singleton.1 hdst
    exact ⟨.y, transferInto_determinedBy (fun _ => rfl) (fun _ _ => rfl), .inr (by simp [transferList])⟩
  | tsx =>
    obtain rfl := List.mem_singleton.1 hdst
    exact ⟨.sp, transferInto_determinedBy (fun _ => rfl) (fun _ _ => rfl), .inr (by simp [transferList])⟩
  | txs =>
    obtain rfl := List.mem_singleton.1 hdst
    exact ⟨.x, txs_determinedBy, .inr (by simp [transferList])⟩
  | pla =>
    cases dst with
    | a => exact ⟨_, pla_determinedBy, .inl rfl⟩
    | sp => exact ⟨_, sp_determinedBy hdst nofun, .inl rfl⟩
    | x | y => simp [registersWritten, Instr.mnemonic] at hdst
  | pha | php | plp | jsr | rts | brk | rti =>
    obtain rfl := List.mem_singleton.1 hdst
    exact ⟨_, sp_determinedBy hdst nofun, .inl rfl⟩
  | _ => simp [registersWritten, Instr.mnemonic, Instr.operand] at hdst

/-! ### Telling registers apart -/

/-- The state after reset with one register changed: a memory of zeros in which a register is told from the others. -/
def State.resetWith (r : RegName) (v : Byte) : State :=
  match r with
  | .a => State.reset.setA v
  | .x => State.reset.setX v
  | .y => State.reset.setY v
  | .sp => State.reset.setSp v

theorem State.resetWith_reg (r : RegName) (v : Byte) : (State.resetWith r v).reg r = v := by
  cases r <;> rfl

theorem State.resetWith_reg_other {r q : RegName} (h : q ≠ r) (v : Byte) :
    (State.resetWith r v).reg q = State.reset.reg q := by
  cases r with
  | a => exact State.setA_reg _ v h
  | x => exact State.setX_reg _ v h
  | y => exact State.setY_reg _ v h
  | sp => exact State.setSp_reg _ v h

theorem State.resetWith_flags (r : RegName) (v : Byte) : (State.resetWith r v).flags = State.reset.flags := by
  cases r <;> rfl

theorem State.resetWith_mem (r : RegName) (v : Byte) : (State.resetWith r v).mem = [] := by
  cases r <;> rfl

theorem State.resetWith_cfg (r : RegName) (v : Byte) : (State.resetWith r v).cfg = Config.standard := by
  cases r <;> rfl

/-- Under the default parameters every address is `ram`. -/
theorem State.allAccessible_of_standard {s : State} (h : s.cfg = Config.standard) : s.AllAccessible := by
  intro addr
  have hregion : regionOf s.cfg addr = some ⟨0x0000, 0xFFFF, .ram, 0x0000, 0⟩ := by
    have hlt := addr.isLt
    simp [h, regionOf, Config.standard]
    omega
  exact (s.accessible_eq_true addr).2 (.inl (by rw [State.classOf, hregion]))

theorem exec_resetWith_completes (i : Instr) (r : RegName) (v : Byte) : ∃ t, exec i (State.resetWith r v) = .next t :=
  everyInstructionCompletes _ i (State.allAccessible_of_standard (State.resetWith_cfg r v))
    fun _ => congrArg Config.decimal (State.resetWith_cfg r v)

/-- A transfer's source is the register that determines its destination: another one can change alone. -/
theorem IsTransfer.eq_of_determinedBy {i : Instr} {src dst q : RegName} (h : IsTransfer i src dst)
    (hdet : DeterminedBy i dst q) : q = src := by
  by_contra hne
  obtain ⟨F, hF⟩ := hdet
  have hvalue (v : Byte) : v = F (State.reset.reg q) State.reset.flags := by
    obtain ⟨t, ht⟩ := exec_resetWith_completes i src v
    calc v = (State.resetWith src v).reg src := (State.resetWith_reg src v).symm
      _ = t.reg dst := (h _ t ht).symm
      _ = F ((State.resetWith src v).reg q) (State.resetWith src v).flags := hF _ t (State.resetWith_mem src v) ht
      _ = F (State.reset.reg q) State.reset.flags := by rw [State.resetWith_reg_other hne, State.resetWith_flags]
  exact absurd ((hvalue 0).trans (hvalue 1).symm) (by decide)

end Sys2Proof.Machine

open Sys2Proof Sys2Proof.Machine

/-- Settles O41: a transfer's source determines its destination, and `exists_determinedBy` names all that are not the
destination itself. -/
theorem registerTransfers : Obligations.RegisterTransfers := by
  refine ⟨rfl, rfl, rfl, rfl, fun i src dst hne htransfer => ?only, fun s => ⟨?tax, ?tay, ?txa, ?tya⟩⟩
  case only =>
    obtain ⟨q, hdet, hq⟩ := exists_determinedBy i dst
    obtain rfl := htransfer.eq_of_determinedBy hdet
    exact hq.resolve_left hne
  case tax => exact (transferInto_eq_next State.setX s.a s _).2 rfl
  case tay => exact (transferInto_eq_next State.setY s.a s _).2 rfl
  case txa => exact (transferInto_eq_next State.setA s.x s _).2 rfl
  case tya => exact (transferInto_eq_next State.setA s.y s _).2 rfl
end
